-- ==== Sys2Proof/Word.lean ====
section
/-! DEFINITION. The word types of the machine. -/

namespace Sys2Proof

/-- A register or a memory byte (R20, R50). -/
abbrev Byte := BitVec 8

/-- An instruction word, the program counter, the index register or a call stack entry (R22, R23, R24, R80). -/
abbrev Word := BitVec 16

/-- The 12-bit address immediate `nnn` (R81). -/
abbrev Addr := BitVec 12

/-- A 4-bit field of an instruction word (R81). -/
abbrev Nibble := BitVec 4

/-- A register number, also a key number: 0..15 (R20, R27). -/
abbrev Reg := Fin 16

end Sys2Proof
end

