-- ==== Sys2Proof/Syntax.lean ====
section
/-! DEFINITION. The 34 instructions: one constructor per row of rule R84, in the table's order, with the operand
fields of rule R81. -/

namespace Sys2Proof

/-- The closed instruction set of R84. `shiftRight` and `shiftLeft` keep the field `y` that they ignore (R87; log 9),
so that an instruction holds every bit of its word. -/
inductive Instr where
  | clearScreen
  | ret
  | jump (nnn : Addr)
  | call (nnn : Addr)
  | skipEqImm (x : Reg) (nn : Byte)
  | skipNeqImm (x : Reg) (nn : Byte)
  | skipEqReg (x y : Reg)
  | skipNeqReg (x y : Reg)
  | setImm (x : Reg) (nn : Byte)
  | addImm (x : Reg) (nn : Byte)
  | setReg (x y : Reg)
  | orReg (x y : Reg)
  | andReg (x y : Reg)
  | xorReg (x y : Reg)
  | addReg (x y : Reg)
  | subReg (x y : Reg)
  | shiftRight (x y : Reg)
  | subnReg (x y : Reg)
  | shiftLeft (x y : Reg)
  | setIndex (nnn : Addr)
  | jumpOffset (nnn : Addr)
  | randMask (x : Reg) (nn : Byte)
  | draw (x y : Reg) (n : Nibble)
  | skipKeyDown (x : Reg)
  | skipKeyUp (x : Reg)
  | loadDelay (x : Reg)
  | waitKey (x : Reg)
  | setDelay (x : Reg)
  | setSound (x : Reg)
  | addIndex (x : Reg)
  | fontAddress (x : Reg)
  | storeBcd (x : Reg)
  | registerDump (x : Reg)
  | registerLoad (x : Reg)
deriving DecidableEq, Repr

end Sys2Proof
end

