-- ==== Sys2Proof/Decode.lean ====
section
/-! DEFINITION. Decoding (rules R52, R81, R85) and, after it, encoding (R84, R91). The opcode numbers are the spec's
own, taken from general knowledge but for `6xnn` and `8xy4` (R84, G1; log 3: PRESUMED). -/

namespace Sys2Proof

/-- Why the decoder gives no instruction. -/
inductive Reject where
  /-- R85's `Unknown`: the word is in R86's table. -/
  | unknownOpcode
  /-- Fewer than two bytes are left; a fetch of two bytes never meets it. -/
  | truncated
deriving DecidableEq, Repr

/-- The byte at the lower address is the high byte (R52). -/
def wordOfBytes (hi lo : Byte) : Word := hi ++ lo

/-- `op[15:8]`, stored at the lower address (R52, R91). -/
def highByte (op : Word) : Byte := op.extractLsb' 8 8

/-- `op[7:0]`, stored at the higher address (R52, R91). -/
def lowByte (op : Word) : Byte := op.extractLsb' 0 8

/-- The register that a 4-bit selector names (R20). -/
def regOfBits (b : Nibble) : Reg := b.toFin

/-- The 4-bit selector of a register (R20). -/
def bitsOfReg (r : Reg) : Nibble := BitVec.ofFin r

/-- `class = op[15:12]` (R81). -/
def fieldClass (op : Word) : Nibble := op.extractLsb' 12 4
/-- `x = op[11:8]` (R81). -/
def fieldX (op : Word) : Reg := regOfBits (op.extractLsb' 8 4)
/-- `y = op[7:4]` (R81). -/
def fieldY (op : Word) : Reg := regOfBits (op.extractLsb' 4 4)
/-- `n = op[3:0]` (R81). -/
def fieldN (op : Word) : Nibble := op.extractLsb' 0 4
/-- `nn = op[7:0]` (R81). -/
def fieldNN (op : Word) : Byte := op.extractLsb' 0 8
/-- `nnn = op[11:0]` (R81). -/
def fieldNNN (op : Word) : Addr := op.extractLsb' 0 12

/-- Class 0: the whole word is decoded (R85). -/
def decodeClass0 (op : Word) : Except Reject Instr :=
  if op = 0x00E0#16 then .ok .clearScreen
  else if op = 0x00EE#16 then .ok .ret
  else .error .unknownOpcode

/-- Class 8: `n` is the sub-opcode (R85). -/
def decodeClass8 (n : Nibble) (x y : Reg) : Except Reject Instr :=
  match n.toNat with
  | 0x0 => .ok (.setReg x y)
  | 0x1 => .ok (.orReg x y)
  | 0x2 => .ok (.andReg x y)
  | 0x3 => .ok (.xorReg x y)
  | 0x4 => .ok (.addReg x y)
  | 0x5 => .ok (.subReg x y)
  | 0x6 => .ok (.shiftRight x y)
  | 0x7 => .ok (.subnReg x y)
  | 0xE => .ok (.shiftLeft x y)
  | _ => .error .unknownOpcode

/-- Class E: `nn` is the sub-opcode (R85). -/
def decodeClassE (nn : Byte) (x : Reg) : Except Reject Instr :=
  match nn.toNat with
  | 0x9E => .ok (.skipKeyDown x)
  | 0xA1 => .ok (.skipKeyUp x)
  | _ => .error .unknownOpcode

/-- Class F: `nn` is the sub-opcode (R85). -/
def decodeClassF (nn : Byte) (x : Reg) : Except Reject Instr :=
  match nn.toNat with
  | 0x07 => .ok (.loadDelay x)
  | 0x0A => .ok (.waitKey x)
  | 0x15 => .ok (.setDelay x)
  | 0x18 => .ok (.setSound x)
  | 0x1E => .ok (.addIndex x)
  | 0x29 => .ok (.fontAddress x)
  | 0x33 => .ok (.storeBcd x)
  | 0x55 => .ok (.registerDump x)
  | 0x65 => .ok (.registerLoad x)
  | _ => .error .unknownOpcode

/-- Classes 5 and 9 are instructions only with `n = 0` (R85, D8; log 4). -/
def decodeWhenZero (n : Nibble) (i : Instr) : Except Reject Instr :=
  if n = 0#4 then .ok i else .error .unknownOpcode

/-- R85: the total decode function on the 65536 words. A class has four bits, so the last arm is class F. -/
def decodeWord (op : Word) : Except Reject Instr :=
  match (fieldClass op).toNat with
  | 0x0 => decodeClass0 op
  | 0x1 => .ok (.jump (fieldNNN op))
  | 0x2 => .ok (.call (fieldNNN op))
  | 0x3 => .ok (.skipEqImm (fieldX op) (fieldNN op))
  | 0x4 => .ok (.skipNeqImm (fieldX op) (fieldNN op))
  | 0x5 => decodeWhenZero (fieldN op) (.skipEqReg (fieldX op) (fieldY op))
  | 0x6 => .ok (.setImm (fieldX op) (fieldNN op))
  | 0x7 => .ok (.addImm (fieldX op) (fieldNN op))
  | 0x8 => decodeClass8 (fieldN op) (fieldX op) (fieldY op)
  | 0x9 => decodeWhenZero (fieldN op) (.skipNeqReg (fieldX op) (fieldY op))
  | 0xA => .ok (.setIndex (fieldNNN op))
  | 0xB => .ok (.jumpOffset (fieldNNN op))
  | 0xC => .ok (.randMask (fieldX op) (fieldNN op))
  | 0xD => .ok (.draw (fieldX op) (fieldY op) (fieldN op))
  | 0xE => decodeClassE (fieldNN op) (fieldX op)
  | _ => decodeClassF (fieldNN op) (fieldX op)

/-- Decoding a byte stream: two bytes, high byte first, and the rest of the stream (R52, R80). -/
def decodeBytes : List Byte → Except Reject (Instr × List Byte)
  | hi :: lo :: rest => (decodeWord (wordOfBytes hi lo)).map fun i => (i, rest)
  | _ => .error .truncated

/-- The bytes of a word as the hardware stores them, lowest address first (R91). -/
def bytesOfWord (op : Word) : List Byte := [highByte op, lowByte op]

/-- The first instruction word of an instruction that spec/opcode_table.json gives as a number of `nbits` bits. -/
def tableWord (nbits w : Nat) : Word := BitVec.ofNat 16 (w % 2 ^ nbits)

/-- What the decoder reads from an instruction word of the opcode table (host interface). -/
def decodeTableWord (nbits w : Nat) : Option Instr :=
  match decodeBytes (bytesOfWord (tableWord nbits w)) with
  | .ok (i, _) => some i
  | .error _ => none

/-- Formats `XY` and `XYN` (R82). -/
def packXYN (c : Nibble) (x y : Reg) (n : Nibble) : Word :=
  ((c ++ bitsOfReg x : BitVec 8) ++ (bitsOfReg y ++ n : BitVec 8) : BitVec 16)

/-- Formats `XNN` and `X` (R82). -/
def packXNN (c : Nibble) (x : Reg) (nn : Byte) : Word :=
  ((c ++ bitsOfReg x : BitVec 8) ++ nn : BitVec 16)

/-- Format `NNN` (R82). -/
def packNNN (c : Nibble) (nnn : Addr) : Word := (c ++ nnn : BitVec 16)

/-- R91: the class in `op[15:12]`, each operand in its field, the sub-opcode of R84. -/
def encode : Instr → Word
  | .clearScreen => 0x00E0#16
  | .ret => 0x00EE#16
  | .jump nnn => packNNN 0x1#4 nnn
  | .call nnn => packNNN 0x2#4 nnn
  | .skipEqImm x nn => packXNN 0x3#4 x nn
  | .skipNeqImm x nn => packXNN 0x4#4 x nn
  | .skipEqReg x y => packXYN 0x5#4 x y 0x0#4
  | .skipNeqReg x y => packXYN 0x9#4 x y 0x0#4
  | .setImm x nn => packXNN 0x6#4 x nn
  | .addImm x nn => packXNN 0x7#4 x nn
  | .setReg x y => packXYN 0x8#4 x y 0x0#4
  | .orReg x y => packXYN 0x8#4 x y 0x1#4
  | .andReg x y => packXYN 0x8#4 x y 0x2#4
  | .xorReg x y => packXYN 0x8#4 x y 0x3#4
  | .addReg x y => packXYN 0x8#4 x y 0x4#4
  | .subReg x y => packXYN 0x8#4 x y 0x5#4
  | .shiftRight x y => packXYN 0x8#4 x y 0x6#4
  | .subnReg x y => packXYN 0x8#4 x y 0x7#4
  | .shiftLeft x y => packXYN 0x8#4 x y 0xE#4
  | .setIndex nnn => packNNN 0xA#4 nnn
  | .jumpOffset nnn => packNNN 0xB#4 nnn
  | .randMask x nn => packXNN 0xC#4 x nn
  | .draw x y n => packXYN 0xD#4 x y n
  | .skipKeyDown x => packXNN 0xE#4 x 0x9E#8
  | .skipKeyUp x => packXNN 0xE#4 x 0xA1#8
  | .loadDelay x => packXNN 0xF#4 x 0x07#8
  | .waitKey x => packXNN 0xF#4 x 0x0A#8
  | .setDelay x => packXNN 0xF#4 x 0x15#8
  | .setSound x => packXNN 0xF#4 x 0x18#8
  | .addIndex x => packXNN 0xF#4 x 0x1E#8
  | .fontAddress x => packXNN 0xF#4 x 0x29#8
  | .storeBcd x => packXNN 0xF#4 x 0x33#8
  | .registerDump x => packXNN 0xF#4 x 0x55#8
  | .registerLoad x => packXNN 0xF#4 x 0x65#8

/-- The bytes of an instruction, lowest address first (R91). -/
def encodeBytes (i : Instr) : List Byte := bytesOfWord (encode i)

/-- `mask` and `match` of the instruction's row in R84. -/
def Instr.pattern : Instr → Word × Word
  | .clearScreen => (0xFFFF#16, 0x00E0#16)
  | .ret => (0xFFFF#16, 0x00EE#16)
  | .jump _ => (0xF000#16, 0x1000#16)
  | .call _ => (0xF000#16, 0x2000#16)
  | .skipEqImm _ _ => (0xF000#16, 0x3000#16)
  | .skipNeqImm _ _ => (0xF000#16, 0x4000#16)
  | .skipEqReg _ _ => (0xF00F#16, 0x5000#16)
  | .skipNeqReg _ _ => (0xF00F#16, 0x9000#16)
  | .setImm _ _ => (0xF000#16, 0x6000#16)
  | .addImm _ _ => (0xF000#16, 0x7000#16)
  | .setReg _ _ => (0xF00F#16, 0x8000#16)
  | .orReg _ _ => (0xF00F#16, 0x8001#16)
  | .andReg _ _ => (0xF00F#16, 0x8002#16)
  | .xorReg _ _ => (0xF00F#16, 0x8003#16)
  | .addReg _ _ => (0xF00F#16, 0x8004#16)
  | .subReg _ _ => (0xF00F#16, 0x8005#16)
  | .shiftRight _ _ => (0xF00F#16, 0x8006#16)
  | .subnReg _ _ => (0xF00F#16, 0x8007#16)
  | .shiftLeft _ _ => (0xF00F#16, 0x800E#16)
  | .setIndex _ => (0xF000#16, 0xA000#16)
  | .jumpOffset _ => (0xF000#16, 0xB000#16)
  | .randMask _ _ => (0xF000#16, 0xC000#16)
  | .draw _ _ _ => (0xF000#16, 0xD000#16)
  | .skipKeyDown _ => (0xF0FF#16, 0xE09E#16)
  | .skipKeyUp _ => (0xF0FF#16, 0xE0A1#16)
  | .loadDelay _ => (0xF0FF#16, 0xF007#16)
  | .waitKey _ => (0xF0FF#16, 0xF00A#16)
  | .setDelay _ => (0xF0FF#16, 0xF015#16)
  | .setSound _ => (0xF0FF#16, 0xF018#16)
  | .addIndex _ => (0xF0FF#16, 0xF01E#16)
  | .fontAddress _ => (0xF0FF#16, 0xF029#16)
  | .storeBcd _ => (0xF0FF#16, 0xF033#16)
  | .registerDump _ => (0xF0FF#16, 0xF055#16)
  | .registerLoad _ => (0xF0FF#16, 0xF065#16)

end Sys2Proof
end

