-- ==== Sys2Proof/Config.lean ====
section
/-! DEFINITION. The configuration of a core (its open parameter `FONT`, R4), and the free value behind the random input
of rule R108. The fixed parameters of R4 stand as the numbers that the rules write: 4096 bytes of memory, the font at 0
with 5 bytes a glyph, programs of at most 3584 bytes at 0x200, 16 registers, 16 stack entries, 16 keys, 64 x 32 cells. -/

namespace Sys2Proof

/-- `FONT[0..79]` (R4, D10). -/
abbrev FontTable := Vector Byte 80

/-- What one core is built with and no operation changes: the open parameter `FONT` (R4, D10; log 1). -/
structure Config where
  font : FontTable
deriving DecidableEq, Repr

/-- FREE VALUE (R108, D16; log 2): the byte that the `n`th random draw yields when the host has injected none.
It has no body, so nothing is known of it. -/
opaque Config.freeRnd : Nat → Byte

end Sys2Proof
end

