-- ==== Sys2Proof/Machine/State.lean ====
section
/-! DEFINITION. The state of the machine (rule R33 lists it exhaustively), its named updates, its reset value (R34),
and the names of the errors (R201) and of the step result (R104). -/

namespace Sys2Proof.Machine

/-- `FB`: `fb[cy][cx]`, row from the top, column from the left (R28). -/
abbrev Framebuffer := Vector (Vector Bool 64) 32

/-- The bytes of `M` that differ from the reset contents, addresses strictly rising (log 22). -/
abbrev Memory := List Host.Cell

/-- The whole state of R33, then three fields of the model's own. -/
structure State where
  /-- `V[0..15]` (R20); `V[15]` is the flag register `VF` (R21). -/
  v : Vector Byte 16
  /-- `I` (R22). -/
  index : Word
  /-- `pc` (R23). -/
  pc : Word
  /-- `STK[0..15]` (R24). -/
  stk : Vector Word 16
  /-- `SP`, 0..16 (R24; log 20). -/
  sp : Fin 17
  /-- `DT` (R25). -/
  dt : Byte
  /-- `ST` (R26). -/
  st : Byte
  /-- `KEY_CUR[0..15]` (R27). -/
  keyCur : Vector Bool 16
  /-- `KEY_PREV[0..15]` (R27). -/
  keyPrev : Vector Bool 16
  /-- `FB` (R28). -/
  fb : Framebuffer
  /-- `FB_CHANGED` (R29). -/
  fbChanged : Bool
  /-- `SND` (R30). -/
  snd : Bool
  /-- `M[0..4095]` (R31). -/
  mem : Memory
  /-- Model's own: the configuration of this core; no operation writes it (D10; log 1). -/
  cfg : Config
  /-- Model's own: random bytes injected and not drawn yet (R108; log 2). -/
  rndIn : List Byte
  /-- Model's own: how many free random bytes have been drawn (R108; log 2). -/
  rndCount : Nat
deriving DecidableEq, Repr

/-- The fatal errors of `step` (R201), each precise: the step has changed nothing (R106). The host's `Outcome.fault`
ends a run where the hardware would repeat the same error: safe (log 5). `UnknownOpcode` is no fault, since it is not
fatal: the step goes on (R105). -/
inductive Fault where
  /-- `call` with `SP = 16` (R122). Safe. -/
  | stackOverflow
  /-- `return` with `SP = 0` (R120). Safe. -/
  | stackUnderflow
  /-- Fetch with `pc > 4094` (R101, D1; log 12). Safe. -/
  | fetchOutOfRange
  /-- Fetch with an odd `pc` of at most 4094 (R101, D2; log 12). Safe. -/
  | fetchMisaligned
  /-- `draw`, `store-bcd`, `register-dump`, `register-load` whose last byte is above 4095 (R55, R56, D3; log 11). Safe. -/
  | addressOutOfRange
  /-- `store-bcd`, `register-dump` whose first byte is below 0x200 (R56, D4; log 11). Safe. -/
  | writeProtected
  /-- `skip-key-down`, `skip-key-up` with `V[x] > 15` (R180, R181, D5; log 13). Safe. -/
  | keyIndexOutOfRange
deriving DecidableEq, Repr

/-- No meaning of this model refuses: `notModelled` would be raised by an arm of `exec` that has no meaning yet, and
there is none. Safe. -/
inductive Refusal where
  | notModelled (mnemonic : String)
deriving DecidableEq, Repr

/-- The ten statuses of R104: three that are not fatal and the seven fatal errors. -/
inductive Status where
  | ok
  | stalled
  | unknownOpcode
  | fatal (f : Fault)
deriving DecidableEq, Repr

/-- The pair that `step` returns (R104). -/
structure StepResult where
  status : Status
  changed : Bool
deriving DecidableEq, Repr

/-- What an instruction or a step answers. -/
abbrev Result := Host.Outcome State Fault Refusal

namespace State

/-- The register file replaced. -/
def setRegs (s : State) (v : Vector Byte 16) : State := { s with v := v }
/-- `I` replaced. -/
def setIndex (s : State) (w : Word) : State := { s with index := w }
/-- `pc` replaced. -/
def setPc (s : State) (w : Word) : State := { s with pc := w }
/-- The call stack and its pointer replaced. -/
def setStack (s : State) (stk : Vector Word 16) (sp : Fin 17) : State :=
  { s with stk := stk, sp := sp }
/-- `DT` replaced. -/
def setDt (s : State) (b : Byte) : State := { s with dt := b }
/-- `ST` replaced. -/
def setSt (s : State) (b : Byte) : State := { s with st := b }
/-- Both key vectors replaced. -/
def setKeys (s : State) (cur prev : Vector Bool 16) : State := { s with keyCur := cur, keyPrev := prev }
/-- `FB` replaced. -/
def setFb (s : State) (fb : Framebuffer) : State := { s with fb := fb }
/-- `FB_CHANGED` replaced. -/
def setFbChanged (s : State) (b : Bool) : State := { s with fbChanged := b }
/-- `SND` replaced. -/
def setSnd (s : State) (b : Bool) : State := { s with snd := b }
/-- `M` replaced. -/
def setMem (s : State) (m : Memory) : State := { s with mem := m }
/-- The random input replaced. -/
def setRnd (s : State) (rndIn : List Byte) (rndCount : Nat) : State :=
  { s with rndIn := rndIn, rndCount := rndCount }

/-- The state after `reset()` of a core whose configuration is `cfg`, every field at R34's value; memory lists
nothing, since an unlisted byte reads as its reset value (R31; log 22). -/
def resetWith (cfg : Config) : State where
  v := Vector.replicate 16 0
  index := 0
  pc := BitVec.ofNat 16 0x200
  stk := Vector.replicate 16 0
  sp := 0
  dt := 0
  st := 0
  keyCur := Vector.replicate 16 false
  keyPrev := Vector.replicate 16 false
  fb := Vector.replicate 32 (Vector.replicate 64 false)
  fbChanged := false
  snd := false
  mem := []
  cfg := cfg
  rndIn := []
  rndCount := 0

/-- The machine right after reset (R34), built with the default font (G2; log 1: PRESUMED) and with no random byte
injected (log 2: DESIGN CHOICE). -/
def reset : State := resetWith ⟨defaultFont⟩

end State

end Sys2Proof.Machine
end

