-- ==== Sys2Proof/Machine/Ops.lean ====
section
/-! DEFINITION. The shared operations: registers, program counter, memory with its checks (R55, R56), raising an error
(R200), fetch (R101), call stack (R24), keypad queries (R186), random input (R108). -/

namespace Sys2Proof.Machine

/-! ### Memory -/

/-- What an address that the list does not hold reads as: the reset contents of R31, `FONT[a]` for `a` in [0, 80) and
0 elsewhere. -/
def Memory.unlisted (font : FontTable) (a : Nat) : Byte :=
  if h : a < 80 then font[a] else 0

/-- One byte of `M` (R58). -/
def Memory.read (font : FontTable) : Memory → Nat → Byte
  | [], a => Memory.unlisted font a
  | c :: m, a => if c.1 = a then c.2 else Memory.read font m a

/-- A cell in front of a list, unless it says what an unlisted address reads as anyway. -/
def Memory.cons (font : FontTable) (a : Nat) (b : Byte) (m : Memory) : Memory :=
  if b = Memory.unlisted font a then m else (a, b) :: m

/-- One byte written, the canonical form kept. -/
def Memory.put (font : FontTable) : Memory → Nat → Byte → Memory
  | [], a, b => Memory.cons font a b []
  | c :: m, a, b =>
    if a < c.1 then Memory.cons font a b (c :: m)
    else if a = c.1 then Memory.cons font a b m
    else c :: Memory.put font m a b

/-- Bytes written at ascending addresses (R53). -/
def Memory.putBytes (font : FontTable) : Memory → Nat → List Byte → Memory
  | m, _, [] => m
  | m, a, b :: bs => Memory.putBytes font (Memory.put font m a b) (a + 1) bs

/-- The canonical form: addresses inside [0, 4096) and strictly rising, no entry equal to what an unlisted address
reads as (log 22). -/
def Memory.wf (font : FontTable) : Memory → Bool
  | [] => true
  | c :: m =>
    decide (c.1 < 4096) && decide (c.2 ≠ Memory.unlisted font c.1) &&
      (m.all fun d => decide (c.1 < d.1)) && Memory.wf font m

/-- `M[a]` (R50). -/
def State.byteAt (s : State) (a : Nat) : Byte := Memory.read s.cfg.font s.mem a

/-- Bytes written to `M` with no check: what `MemWrite` does after its checks and what a program load does. -/
def State.pokeBytes (s : State) (a : Nat) (bs : List Byte) : State :=
  s.setMem (Memory.putBytes s.cfg.font s.mem a bs)

/-- `MemRead(a, n)` (R55): the whole range is checked before any byte is used; `n = 0` reads nothing and cannot
fail. -/
def memRead (a n : Nat) (s : State) : Except Fault (List Byte) :=
  if n = 0 then .ok []
  else if a + n - 1 > 4095 then .error .addressOutOfRange
  else .ok ((List.range n).map fun k => s.byteAt (a + k))

/-- `MemWrite(a, n, bytes)` (R56): both checks cover the whole range and precede every write. -/
def memWrite (a : Nat) (bs : List Byte) (s : State) : Except Fault State :=
  if a + bs.length - 1 > 4095 then .error .addressOutOfRange
  else if a < 0x200 then .error .writeProtected
  else .ok (s.pokeBytes a bs)

/-! ### Errors -/

/-- `raise <Error>` (R8, R200, R212), the one thing this machine has for taking an exception: the step ends at once,
no state is written, nothing is saved and control goes nowhere; the host gets the error's name. There is no return from
it (R214). -/
def raise (f : Fault) : Result := .fault f

/-- Go on with the value of a checked access, or raise its error. -/
def orRaise {α : Type} (r : Except Fault α) (k : α → Result) : Result :=
  match r with
  | .ok a => k a
  | .error f => raise f

/-! ### Registers and the program counter -/

/-- `V[x]` (R20). -/
def State.reg (s : State) (x : Reg) : Byte := s.v[x]

/-- `V[x] <- b` (R20): no register is hardwired. -/
def State.setReg (s : State) (x : Reg) (b : Byte) : State := s.setRegs (s.v.set x b)

/-- The number of the flag register, `FLAG_REG` (R4, R21). -/
def flagReg : Reg := 15

/-- `VF <- 1` or `VF <- 0`, all eight bits written (R21). -/
def State.setFlag (s : State) (f : Bool) : State := s.setReg flagReg (if f then 1 else 0)

/-- A register file with `V[k] <- bs[k]` for every `k` that `bs` reaches (R165). -/
def loadedRegs (v : Vector Byte 16) (bs : List Byte) : Vector Byte 16 :=
  Vector.ofFn fun k : Fin 16 => bs.getD k.val v[k]

/-- `V[k] <- bs[k]` for every `k` that `bs` reaches (R165). -/
def State.loadRegs (s : State) (bs : List Byte) : State := s.setRegs (loadedRegs s.v bs)

/-- `[V[0], ..., V[x]]` (R164). -/
def State.regsUpTo (s : State) (x : Reg) : List Byte := s.v.toList.take (x.val + 1)

/-- The default policy `pc + 2` (R103), modulo 65536 (D31). -/
def State.advance (s : State) : State := s.setPc (s.pc + 2)

/-- The conditional-skip policy: `pc + 4` if the condition holds, else `pc + 2` (R103). -/
def State.skipIf (s : State) (cond : Bool) : State := s.setPc (if cond then s.pc + 4 else s.pc + 2)

/-- The result goes to `V[x]` first and the flag to `VF` last, so the flag wins when `x = 15` (R153, D7; log 10). -/
def State.setRegThenFlag (s : State) (x : Reg) (b : Byte) (f : Bool) : State := (s.setReg x b).setFlag f

/-- R105: an unrecognized word advances `pc` by 2 and changes nothing else. -/
def unknownOpcode (s : State) : Result := .next s.advance

/-! ### Fetch -/

/-- `M[pc] ++ M[pc+1]` (R52). -/
def State.wordAt (s : State) (a : Nat) : Word := wordOfBytes (s.byteAt a) (s.byteAt (a + 1))

/-- `Fetch(pc)` (R101): the range check comes before the alignment check (R211; log 12). -/
def fetch (s : State) : Except Fault Word :=
  if s.pc.toNat > 4094 then .error .fetchOutOfRange
  else if s.pc.toNat % 2 = 1 then .error .fetchMisaligned
  else .ok (s.wordAt s.pc.toNat)

/-! ### Call stack -/

/-- `STK[SP] <- w; SP <- SP + 1`, or `StackOverflow` when `SP = 16` (R122). -/
def pushStack (w : Word) (s : State) : Except Fault State :=
  if h : s.sp.val < 16 then
    .ok (s.setStack (s.stk.set s.sp.val w) ⟨s.sp.val + 1, Nat.succ_lt_succ h⟩)
  else .error .stackOverflow

/-- `SP <- SP - 1`, answering `STK[SP]` and the state, or `StackUnderflow` when `SP = 0` (R120); the popped entry keeps
its value (R24, D32). -/
def popStack (s : State) : Except Fault (Word × State) :=
  if h : 0 < s.sp.val then
    have hk : s.sp.val - 1 < 16 := by have := s.sp.isLt; omega
    .ok (s.stk[s.sp.val - 1], s.setStack s.stk ⟨s.sp.val - 1, Nat.lt_succ_of_lt hk⟩)
  else .error .stackUnderflow

/-! ### Keypad -/

/-- `KEY_CUR[k]` for a key number held in a register, or `KeyIndexOutOfRange` when it is above 15 (R180, R186). -/
def keyDown (k : Byte) (s : State) : Except Fault Bool :=
  if h : k.toNat < 16 then .ok s.keyCur[k.toNat] else .error .keyIndexOutOfRange

/-- `edge()` (R186): the lowest-numbered key whose state differs from the previous sample. -/
def State.edge (s : State) : Option Reg := (List.finRange 16).find? fun k => s.keyCur[k] != s.keyPrev[k]

/-! ### Framebuffer -/

/-- All cells 0 (R28, R170). -/
def blankFb : Framebuffer := Vector.replicate 32 (Vector.replicate 64 false)

/-- `FB[cy][cx]` (R28). -/
def State.cell (s : State) (cx : Fin 64) (cy : Fin 32) : Bool := s.fb[cy][cx]

/-- A cell XORed with 1 (R171). -/
def toggleCell (fb : Framebuffer) (cx : Fin 64) (cy : Fin 32) : Framebuffer :=
  fb.set cy (fb[cy].set cx (!fb[cy][cx]))

/-- Column `cx = n mod 64` (R171). -/
def wrapX (n : Nat) : Fin 64 := ⟨n % 64, Nat.mod_lt _ (by decide)⟩

/-- Row `cy = n mod 32` (R171). -/
def wrapY (n : Nat) : Fin 32 := ⟨n % 32, Nat.mod_lt _ (by decide)⟩

/-- What a draw works on: the framebuffer and whether a cell has gone from 1 to 0 so far (R171). -/
structure Canvas where
  fb : Framebuffer
  hit : Bool
deriving DecidableEq, Repr

/-- One set sprite bit: the cell is XORed with 1, and a cell that was 1 is a hit (R171). -/
def plot (cx : Fin 64) (cy : Fin 32) (k : Canvas) : Canvas :=
  ⟨toggleCell k.fb cx cy, k.hit || k.fb[cy][cx]⟩

/-- Column `c` of a sprite row is bit `7 - c` of its byte (R172). -/
def spriteBit (row : Byte) (c : Nat) : Bool := row.getLsbD (7 - c)

/-- Columns `c`, `c + 1`, ..., 7 of one sprite row, `left` of them (R171). -/
def plotRow (vx : Nat) (cy : Fin 32) (row : Byte) : Nat → Nat → Canvas → Canvas
  | 0, _, k => k
  | left + 1, c, k =>
    plotRow vx cy row left (c + 1) (if spriteBit row c then plot (wrapX (vx + c)) cy k else k)

/-- The sprite rows from row `r` on, top to bottom (R171). -/
def plotRows (vx vy : Nat) : List Byte → Nat → Canvas → Canvas
  | [], _, k => k
  | row :: rows, r, k => plotRows vx vy rows (r + 1) (plotRow vx (wrapY (vy + r)) row 8 0 k)

/-! ### Random input -/

/-- `rnd`, the 8-bit random input of this step (R108): the next injected byte, or a free value (log 2). -/
def State.rnd (s : State) : Byte :=
  match s.rndIn with
  | b :: _ => b
  | [] => Config.freeRnd s.rndCount

/-- The random input has been drawn: the next draw gets another (log 2). -/
def State.consumeRnd (s : State) : State :=
  match s.rndIn with
  | _ :: bs => s.setRnd bs s.rndCount
  | [] => s.setRnd [] (s.rndCount + 1)

end Sys2Proof.Machine
end

