-- ==== Sys2Proof/Machine/Operands.lean ====
section
/-! DEFINITION. Operand forms (R83): every immediate is unsigned, never scaled or sign-extended; the only memory
operand is at `I`, ascending, on unbounded integers (R57). -/

namespace Sys2Proof.Machine

/-- `zext_16(nnn)` (R83). -/
def zextAddr (nnn : Addr) : Word := nnn.setWidth 16

/-- `zext_16(V[x])` (R5). -/
def zextByte (b : Byte) : Word := b.setWidth 16

/-- The effective address of the first data byte, `I` as an unbounded integer (R57). -/
def State.dataAddr (s : State) : Nat := s.index.toNat

/-- How many bytes `register-dump x` and `register-load x` move: `x + 1` (R164, R165). -/
def regCount (x : Reg) : Nat := x.val + 1

/-- How many rows `draw x,y,n` reads (R172). -/
def rowCount (n : Nibble) : Nat := n.toNat

/-- `[v div 100, (v div 10) mod 10, v mod 10]` (R163). -/
def bcdDigits (v : Byte) : List Byte :=
  [BitVec.ofNat 8 (v.toNat / 100), BitVec.ofNat 8 (v.toNat / 10 % 10), BitVec.ofNat 8 (v.toNat % 10)]

/-- `FONT_BASE + 5 * V[x]` with `FONT_BASE = 0`, the whole 8-bit value used (R162). -/
def glyphAddr (v : Byte) : Word := BitVec.ofNat 16 (5 * v.toNat)

end Sys2Proof.Machine
end

