-- ==== Sys2Proof/Machine/Flags.lean ====
section
/-! DEFINITION. Every flag computation of the machine (R21, R152): the value left in `VF`. -/

namespace Sys2Proof.Machine

/-- `add-reg`: 1 iff `a + b > 255` (R146). -/
def carryFlag (a b : Byte) : Bool := decide (a.toNat + b.toNat > 255)

/-- `sub-reg`, `subn-reg`: 1 iff the minuend is at least the subtrahend (R147, R149). -/
def noBorrowFlag (a b : Byte) : Bool := decide (a.toNat ≥ b.toNat)

/-- `shift-right`: `a[0]` (R148). -/
def lowBitFlag (a : Byte) : Bool := a.getLsbD 0

/-- `shift-left`: `a[7]` (R150). -/
def highBitFlag (a : Byte) : Bool := a.getLsbD 7

/-- `add-index`: 1 iff the 16-bit sum exceeds 0xFFF (R161, D11; log 14). -/
def indexFlag (sum : Word) : Bool := decide (sum.toNat > 0xFFF)

end Sys2Proof.Machine
end

