-- ==== Sys2Proof/Machine/Alu.lean ====
section
/-! DEFINITION. Register, arithmetic, logic, shift and random instructions: R140 to R153. -/

namespace Sys2Proof.Machine

/-- `V[x] <- b`, no flag, `pc + 2`: the shape of every instruction here that defines no flag. -/
def setAndAdvance (x : Reg) (b : Byte) (s : State) : Result := .next (s.setReg x b).advance

/-- `V[x] <- b`, then the flag, then `pc + 2` (R153). -/
def setFlagAndAdvance (x : Reg) (b : Byte) (f : Bool) (s : State) : Result :=
  .next (s.setRegThenFlag x b f).advance

/-- `set-imm x,nn` (R140). -/
def execSetImm (x : Reg) (nn : Byte) (s : State) : Result := setAndAdvance x nn s

/-- `add-imm x,nn` (R141): modulo 256, no flag. -/
def execAddImm (x : Reg) (nn : Byte) (s : State) : Result := setAndAdvance x (s.reg x + nn) s

/-- `set-reg x,y` (R142). -/
def execSetReg (x y : Reg) (s : State) : Result := setAndAdvance x (s.reg y) s

/-- `or x,y` (R143). -/
def execOrReg (x y : Reg) (s : State) : Result := setAndAdvance x (s.reg x ||| s.reg y) s

/-- `and x,y` (R144). -/
def execAndReg (x y : Reg) (s : State) : Result := setAndAdvance x (s.reg x &&& s.reg y) s

/-- `xor x,y` (R145). -/
def execXorReg (x y : Reg) (s : State) : Result := setAndAdvance x (s.reg x ^^^ s.reg y) s

/-- `add-reg x,y` (R146). -/
def execAddReg (x y : Reg) (s : State) : Result :=
  setFlagAndAdvance x (s.reg x + s.reg y) (carryFlag (s.reg x) (s.reg y)) s

/-- `sub-reg x,y` (R147). -/
def execSubReg (x y : Reg) (s : State) : Result :=
  setFlagAndAdvance x (s.reg x - s.reg y) (noBorrowFlag (s.reg x) (s.reg y)) s

/-- `shift-right x` (R148): `y` is ignored (R87). -/
def execShiftRight (x _y : Reg) (s : State) : Result :=
  setFlagAndAdvance x (s.reg x >>> 1) (lowBitFlag (s.reg x)) s

/-- `subn-reg x,y` (R149). -/
def execSubnReg (x y : Reg) (s : State) : Result :=
  setFlagAndAdvance x (s.reg y - s.reg x) (noBorrowFlag (s.reg y) (s.reg x)) s

/-- `shift-left x` (R150): `y` is ignored (R87). -/
def execShiftLeft (x _y : Reg) (s : State) : Result :=
  setFlagAndAdvance x (s.reg x <<< 1) (highBitFlag (s.reg x)) s

/-- `rand-mask x,nn` (R151): the step's random input AND `nn`; the input is then spent (log 2). -/
def execRandMask (x : Reg) (nn : Byte) (s : State) : Result :=
  setAndAdvance x (s.rnd &&& nn) s.consumeRnd

end Sys2Proof.Machine
end

