-- ==== Sys2Proof/Machine/Display.lean ====
section
/-! DEFINITION. Display instructions: R170 to R173. -/

namespace Sys2Proof.Machine

/-- `clear-screen` (R170). -/
def execClearScreen (s : State) : Result := .next ((s.setFb blankFb).setFbChanged true).advance

/-- The sprite composited at (`vx`, `vy`), and whether it collided (R171). -/
def drawSprite (vx vy : Byte) (rows : List Byte) (fb : Framebuffer) : Canvas :=
  plotRows vx.toNat vy.toNat rows 0 ⟨fb, false⟩

/-- `draw x,y,n` (R171): the position is the VALUES of `V[x]` and `V[y]` (D12; log 15), the rows are read and checked
before any cell is touched, `VF` is written at the end. -/
def execDraw (x y : Reg) (n : Nibble) (s : State) : Result :=
  orRaise (memRead s.dataAddr (rowCount n) s) fun rows =>
    let k := drawSprite (s.reg x) (s.reg y) rows s.fb
    .next (((s.setFb k.fb).setFlag k.hit).setFbChanged true).advance

end Sys2Proof.Machine
end

