-- ==== Sys2Proof/Machine/Flow.lean ====
section
/-! DEFINITION. Control transfer: R120 to R123. -/

namespace Sys2Proof.Machine

/-- `return` (R120): the popped value plus 2. -/
def execRet (s : State) : Result :=
  orRaise (popStack s) fun (w, t) => .next (t.setPc (w + 2))

/-- `jump nnn` (R121): the target is not checked. -/
def execJump (nnn : Addr) (s : State) : Result := .next (s.setPc (zextAddr nnn))

/-- `call nnn` (R122): the saved value is the call's own address. -/
def execCall (nnn : Addr) (s : State) : Result :=
  orRaise (pushStack s.pc s) fun t => .next (t.setPc (zextAddr nnn))

/-- `jump-offset nnn` (R123): `nnn + V[0]`, neither masked nor pushed. -/
def execJumpOffset (nnn : Addr) (s : State) : Result :=
  .next (s.setPc (zextAddr nnn + zextByte (s.reg 0)))

end Sys2Proof.Machine
end

