-- ==== Sys2Proof/Machine/IndexMemory.lean ====
section
/-! DEFINITION. Index register and memory instructions: R160 to R165. -/

namespace Sys2Proof.Machine

/-- `set-index nnn` (R160). -/
def execSetIndex (nnn : Addr) (s : State) : Result := .next (s.setIndex (zextAddr nnn)).advance

/-- `add-index x` (R161): the 16-bit sum, unmasked; the flag, taken from that sum, is written last. -/
def execAddIndex (x : Reg) (s : State) : Result :=
  let sum := s.index + zextByte (s.reg x)
  .next ((s.setIndex sum).setFlag (indexFlag sum)).advance

/-- `font-address x` (R162). -/
def execFontAddress (x : Reg) (s : State) : Result := .next (s.setIndex (glyphAddr (s.reg x))).advance

/-- `store-bcd x` (R163). -/
def execStoreBcd (x : Reg) (s : State) : Result :=
  orRaise (memWrite s.dataAddr (bcdDigits (s.reg x)) s) fun t => .next t.advance

/-- `register-dump x` (R164). -/
def execRegisterDump (x : Reg) (s : State) : Result :=
  orRaise (memWrite s.dataAddr (s.regsUpTo x) s) fun t => .next t.advance

/-- `register-load x` (R165). -/
def execRegisterLoad (x : Reg) (s : State) : Result :=
  orRaise (memRead s.dataAddr (regCount x) s) fun bs => .next (s.loadRegs bs).advance

end Sys2Proof.Machine
end

