-- ==== Sys2Proof/Machine/KeypadTimers.lean ====
section
/-! DEFINITION. Keypad and timer instructions: R180 to R186. -/

namespace Sys2Proof.Machine

/-- `skip-key-down x` (R180). -/
def execSkipKeyDown (x : Reg) (s : State) : Result :=
  orRaise (keyDown (s.reg x) s) fun down => .next (s.skipIf down)

/-- `skip-key-up x` (R181). -/
def execSkipKeyUp (x : Reg) (s : State) : Result :=
  orRaise (keyDown (s.reg x) s) fun down => .next (s.skipIf !down)

/-- `load-delay x` (R183). -/
def execLoadDelay (x : Reg) (s : State) : Result := .next (s.setReg x s.dt).advance

/-- `wait-key x` (R182): with no edge the step completes and changes nothing, not even `pc`; with one, `V[x]` gets the
key's number. The edge is not consumed (D15; log 17). -/
def execWaitKey (x : Reg) (s : State) : Result :=
  match s.edge with
  | none => .next s
  | some k => .next (s.setReg x (BitVec.ofNat 8 k.val)).advance

/-- `set-delay x` (R184). -/
def execSetDelay (x : Reg) (s : State) : Result := .next (s.setDt (s.reg x)).advance

/-- `set-sound x` (R185): `SND` is not touched. -/
def execSetSound (x : Reg) (s : State) : Result := .next (s.setSt (s.reg x)).advance

end Sys2Proof.Machine
end

