-- ==== Sys2Proof/Machine/Skip.lean ====
section
/-! DEFINITION. Conditional skips on registers and immediates: R130 to R133. -/

namespace Sys2Proof.Machine

/-- `skip-eq-imm x,nn` (R130). -/
def execSkipEqImm (x : Reg) (nn : Byte) (s : State) : Result := .next (s.skipIf (s.reg x == nn))

/-- `skip-neq-imm x,nn` (R131). -/
def execSkipNeqImm (x : Reg) (nn : Byte) (s : State) : Result := .next (s.skipIf (s.reg x != nn))

/-- `skip-eq-reg x,y` (R132). -/
def execSkipEqReg (x y : Reg) (s : State) : Result := .next (s.skipIf (s.reg x == s.reg y))

/-- `skip-neq-reg x,y` (R133). -/
def execSkipNeqReg (x y : Reg) (s : State) : Result := .next (s.skipIf (s.reg x != s.reg y))

end Sys2Proof.Machine
end

