-- ==== Sys2Proof/Machine/Step.lean ====
section
/-! DEFINITION. One `step()` (rules R100 to R105). -/

namespace Sys2Proof.Machine

/-- `step()` (R100): fetch, decode, execute. The instruction word is read once, at the start (R107). -/
def step (s : State) : Host.Outcome State Fault Refusal :=
  match fetch s with
  | .error f => raise f
  | .ok op =>
    match decodeWord op with
    | .ok i => exec i s
    | .error _ => unknownOpcode s

/-- The state with that instruction word stored at `pc`, where the next step fetches (log 21). It stands for a program
load, so no write protection applies; where nothing can be fetched at `pc`, nothing is stored. -/
def State.withFetchWord (s : State) (nbits w : Nat) : State :=
  if s.pc.toNat > 4094 then s else s.pokeBytes s.pc.toNat (bytesOfWord (tableWord nbits w))

end Sys2Proof.Machine
end

