-- ==== Sys2Proof/Machine/HostOps.lean ====
section
/-! DEFINITION. The host's side of the core: the result of a step (R104) and the seven host operations (R213), each one
atomic transition of the state. -/

namespace Sys2Proof.Machine

/-! ### The result of a step -/

/-- The result of an instruction that completes (R104): `changed` is 1 for `clear-screen` and `draw`, whatever the
cells; the status is `Stalled` for a `wait-key` that finds no edge (R182), else `Ok`. -/
def completedResult (i : Instr) (s : State) : StepResult :=
  match i with
  | .clearScreen | .draw _ _ _ => ⟨.ok, true⟩
  | .waitKey _ => ⟨if s.edge = none then .stalled else .ok, false⟩
  | .ret | .jump _ | .call _ | .skipEqImm _ _ | .skipNeqImm _ _ | .skipEqReg _ _ | .skipNeqReg _ _ | .setImm _ _
  | .addImm _ _ | .setReg _ _ | .orReg _ _ | .andReg _ _ | .xorReg _ _ | .addReg _ _ | .subReg _ _ | .shiftRight _ _
  | .subnReg _ _ | .shiftLeft _ _ | .setIndex _ | .jumpOffset _ | .randMask _ _ | .skipKeyDown _ | .skipKeyUp _
  | .loadDelay _ | .setDelay _ | .setSound _ | .addIndex _ | .fontAddress _ | .storeBcd _ | .registerDump _
  | .registerLoad _ => ⟨.ok, false⟩

/-- The pair `(status, changed)` of the step taken in state `s` (R104). It is an output, not state (log 6). No meaning
refuses, so the last arm is never taken. -/
def stepResult (s : State) : StepResult :=
  match fetch s with
  | .error f => ⟨.fatal f, false⟩
  | .ok op =>
    match decodeWord op with
    | .error _ => ⟨.unknownOpcode, false⟩
    | .ok i =>
      match exec i s with
      | .next _ => completedResult i s
      | .fault f => ⟨.fatal f, false⟩
      | .refused _ => ⟨.unknownOpcode, false⟩

/-- The state that a step leaves: after a fatal error, the state before it (R106). -/
def afterStep (s : State) : State :=
  match step s with
  | .next t => t
  | .fault _ => s
  | .refused _ => s

/-! ### The host operations -/

/-- `reset()` (R240): R34's values; the configuration and the random input are the host's and stay (logs 1, 2). -/
def resetOp (s : State) : State := (State.resetWith s.cfg).setRnd s.rndIn s.rndCount

/-- What `loadProgram` returns (R204, R242). -/
inductive LoadStatus where
  | ok
  | malformedProgram
deriving DecidableEq, Repr

/-- `loadProgram(bytes)` (R242): rejected whole when longer than 3584 bytes, else copied to 0x200, touching nothing
else. -/
def loadProgram (bytes : List Byte) (s : State) : LoadStatus × State :=
  if bytes.length > 3584 then (.malformedProgram, s) else (.ok, s.pokeBytes 0x200 bytes)

/-- `setInput(keyVector16)` (R218). -/
def setInput (keys : Vector Bool 16) (s : State) : State := s.setKeys keys s.keyCur

/-- A timer "decrements by at most 1 per timer tick, clamped at 0" (R217). -/
def tickDown (b : Byte) : Byte := if b = 0 then 0 else b - 1

/-- `tickTimers()` (R217): `SND` is 1 iff this tick takes `ST` from 1 to 0. -/
def tickTimers (s : State) : State := ((s.setSnd (s.st == 1)).setDt (tickDown s.dt)).setSt (tickDown s.st)

/-- The 2048 cells in row-major order, cell `(cx, cy)` at position `64 * cy + cx` (R220, D20; log 18). -/
def snapshotCells (s : State) : List Bool := s.fb.toList.flatMap Vector.toList

/-- `framebufferSnapshot()` (R220): the view, and `FB_CHANGED` cleared (R29, D13; log 16). -/
def framebufferSnapshot (s : State) : List Bool × State := (snapshotCells s, s.setFbChanged false)

/-- `soundSignal()` (R219): `SND`, nothing changed. -/
def soundSignal (s : State) : Bool := s.snd

/-- `step(rnd)` (R100, R108): one step whose random input is `rnd`, whether it draws it or not. -/
def stepWith (rnd : Byte) (s : State) : StepResult × State :=
  let offered := s.setRnd (rnd :: s.rndIn) s.rndCount
  (stepResult offered, (afterStep offered).setRnd s.rndIn s.rndCount)

/-- The host's moves (R213). -/
inductive HostOp where
  | reset
  | loadProgram (bytes : List Byte)
  | setInput (keys : Vector Bool 16)
  | step (rnd : Byte)
  | tickTimers
  | framebufferSnapshot
  | soundSignal
deriving DecidableEq, Repr

/-- What an operation returns to the host. -/
inductive HostReply where
  | nothing
  | load (r : LoadStatus)
  | step (r : StepResult)
  | cells (view : List Bool)
  | signal (snd : Bool)
deriving DecidableEq, Repr

/-- One atomic host operation (R213). -/
def hostOp : HostOp → State → HostReply × State
  | .reset, s => (.nothing, resetOp s)
  | .loadProgram bytes, s => (.load (loadProgram bytes s).1, (loadProgram bytes s).2)
  | .setInput keys, s => (.nothing, setInput keys s)
  | .step rnd, s => (.step (stepWith rnd s).1, (stepWith rnd s).2)
  | .tickTimers, s => (.nothing, tickTimers s)
  | .framebufferSnapshot, s => (.cells (framebufferSnapshot s).1, (framebufferSnapshot s).2)
  | .soundSignal, s => (.signal (soundSignal s), s)

/-- A totally ordered sequence of host operations (R60, R213), any interleaving the host likes. -/
def hostRun : List HostOp → State → State
  | [], s => s
  | op :: ops, s => hostRun ops (hostOp op s).2

end Sys2Proof.Machine
end

