-- ==== Sys2Proof/Safety.lean ====
section
/-! DEFINITION. What counts as a safe run, the invariants of rule R35, the end of a run (R250), and the words in which
statements say what an instruction leaves alone. -/

namespace Sys2Proof.Machine

/-! ### Where a step can fetch -/

/-- `pc` references "an even-aligned instruction start in [0, 4094]" (R23, R101). -/
abbrev State.Fetchable (s : State) : Prop := s.pc.toNat ≤ 4094 ∧ s.pc.toNat % 2 = 0

/-- The instruction that the next step runs is `i`: the two bytes at `pc`, high byte first, decode to it (R52, R85). -/
abbrev State.NextIs (s : State) (i : Instr) : Prop :=
  decodeBytes [s.byteAt s.pc.toNat, s.byteAt (s.pc.toNat + 1)] = .ok (i, [])

/-! ### Invariants (R35) -/

/-- The memory list is in its canonical form (log 22). -/
abbrev State.MemCanonical (s : State) : Prop := Memory.wf s.cfg.font s.mem = true

/-- `M[0..79] = FONT`, `M[80..0x1FF] = 0` (R35). -/
abbrev State.LowMemoryIntact (s : State) : Prop :=
  ∀ a < 0x200, s.byteAt a = if h : a < 80 then s.cfg.font[a] else 0

/-- "Every live stack entry `STK[j]`, j < SP, is even and in [0, 4094]" (R35). -/
abbrev State.LiveStackFetchable (s : State) : Prop :=
  ∀ j : Fin 16, j.val < s.sp.val → s.stk[j].toNat ≤ 4094 ∧ s.stk[j].toNat % 2 = 0

/-- `pc <= 0x10FE` (R35). -/
abbrev State.PcBounded (s : State) : Prop := s.pc.toNat ≤ 0x10FE

/-- The invariants of R35 that the types of the fields do not carry already. -/
abbrev State.Inv (s : State) : Prop :=
  s.MemCanonical ∧ s.LowMemoryIntact ∧ s.LiveStackFetchable ∧ s.PcBounded

/-- The values of R34, field by field; `FONT` is whatever table the core was built with. -/
def State.AtReset (s : State) : Prop :=
  (∀ r, s.reg r = 0) ∧ s.index = 0 ∧ s.pc = 0x200 ∧ s.sp = 0 ∧ (∀ j : Fin 16, s.stk[j] = 0) ∧ s.dt = 0 ∧ s.st = 0 ∧
    (∀ k : Reg, s.keyCur[k] = false) ∧ (∀ k : Reg, s.keyPrev[k] = false) ∧ (∀ cx cy, s.cell cx cy = false) ∧
    s.fbChanged = false ∧ s.snd = false ∧ ∀ a < 4096, s.byteAt a = if h : a < 80 then s.cfg.font[a] else 0

/-- The sprite of `draw x,y,n` has a set bit that falls on cell `(cx, cy)` (R171, R172): bit `7 - c` of the byte at
`I + r`, for a row `r < n` and a column `c`, with `cx = (V[x] + c) mod 64` and `cy = (V[y] + r) mod 32`. -/
abbrev State.SpriteCovers (s : State) (x y : Reg) (n : Nibble) (cx : Fin 64) (cy : Fin 32) : Prop :=
  ∃ r < n.toNat, ∃ c < 8,
    (s.byteAt (s.dataAddr + r)).getLsbD (7 - c) = true ∧
      cx.val = ((s.reg x).toNat + c) % 64 ∧ cy.val = ((s.reg y).toNat + r) % 32

/-- `k` is the lowest-numbered key whose state differs from the previous sample (R186). -/
abbrev State.LowestEdge (s : State) (k : Reg) : Prop :=
  s.keyCur[k] ≠ s.keyPrev[k] ∧ ∀ j < k, s.keyCur[j] = s.keyPrev[j]

/-- Instructions executed one after the other, each at the `pc` the one before it left. -/
def execAll : List Instr → State → Result
  | [], s => .next s
  | i :: is, s =>
    match exec i s with
    | .next t => execAll is t
    | .fault f => .fault f
    | .refused e => .refused e

/-! ### Safe runs -/

/-- A step has gone wrong unless it reports `Ok` or `Stalled`: `UnknownOpcode` is not fatal, but no defined instruction
ran (U6). -/
def StepResult.fine (r : StepResult) : Bool := r.status == .ok || r.status == .stalled

/-- A reply that reports no error. -/
def HostReply.fine : HostReply → Bool
  | .nothing | .cells _ | .signal _ => true
  | .load r => r == .ok
  | .step r => r.fine

/-- A run of host operations in which none reports an error. -/
def safeRun : List HostOp → State → Bool
  | [], _ => true
  | op :: ops, s => (hostOp op s).1.fine && safeRun ops (hostOp op s).2

/-- The model's end of a run (R250; log 25: DESIGN CHOICE): the next instruction is a `jump` to its own address. -/
abbrev State.Idle (s : State) : Prop := s.Fetchable ∧ s.NextIs (.jump (s.pc.setWidth 12))

/-! ### Frames -/

/-- The parts of the state beside `V` and `pc`. -/
inductive Part where
  | index
  | stack
  | delayTimer
  | soundTimer
  | soundSignal
  | keypad
  | cells
  | fbChanged
  | memory
  | random
deriving DecidableEq, Repr

/-- A part is the same in both states. Memory is compared through the read of one byte, the framebuffer through the
read of one cell. -/
def Part.Same (s t : State) : Part → Prop
  | .index => t.index = s.index
  | .stack => t.sp = s.sp ∧ ∀ j : Fin 16, t.stk[j] = s.stk[j]
  | .delayTimer => t.dt = s.dt
  | .soundTimer => t.st = s.st
  | .soundSignal => t.snd = s.snd
  | .keypad => t.keyCur = s.keyCur ∧ t.keyPrev = s.keyPrev
  | .cells => ∀ cx cy, t.cell cx cy = s.cell cx cy
  | .fbChanged => t.fbChanged = s.fbChanged
  | .memory => ∀ a, t.byteAt a = s.byteAt a
  | .random => t.rndIn = s.rndIn ∧ t.rndCount = s.rndCount

/-- Between `s` and `t` only the registers of `regs`, the parts of `parts` and `pc` may differ. The configuration never
does. -/
def UnchangedExcept (regs : List Reg) (parts : List Part) (s t : State) : Prop :=
  (∀ r, r ∉ regs → t.reg r = s.reg r) ∧ (∀ p, p ∉ parts → p.Same s t) ∧ t.cfg = s.cfg

/-- The registers that R36 lets an instruction write: `V[x]` where it is a destination, `VF` where it defines a flag,
`V[0..x]` for `register-load`. -/
def writtenRegs : Instr → List Reg
  | .setImm x _ | .addImm x _ | .setReg x _ | .orReg x _ | .andReg x _ | .xorReg x _ | .randMask x _ | .loadDelay x
  | .waitKey x => [x]
  | .addReg x _ | .subReg x _ | .shiftRight x _ | .subnReg x _ | .shiftLeft x _ => [x, flagReg]
  | .addIndex _ | .draw _ _ _ => [flagReg]
  | .registerLoad x => (List.finRange 16).filter fun r => r.val ≤ x.val
  | .clearScreen | .ret | .jump _ | .call _ | .skipEqImm _ _ | .skipNeqImm _ _ | .skipEqReg _ _ | .skipNeqReg _ _
  | .setIndex _ | .jumpOffset _ | .skipKeyDown _ | .skipKeyUp _ | .setDelay _ | .setSound _ | .fontAddress _
  | .storeBcd _ | .registerDump _ => []

/-- The parts that R36 lets an instruction write, and the random input that `rand-mask` spends. -/
def writtenParts : Instr → List Part
  | .setIndex _ | .addIndex _ | .fontAddress _ => [.index]
  | .ret | .call _ => [.stack]
  | .setDelay _ => [.delayTimer]
  | .setSound _ => [.soundTimer]
  | .clearScreen | .draw _ _ _ => [.cells, .fbChanged]
  | .storeBcd _ | .registerDump _ => [.memory]
  | .randMask _ _ => [.random]
  | .jump _ | .skipEqImm _ _ | .skipNeqImm _ _ | .skipEqReg _ _ | .skipNeqReg _ _ | .setImm _ _ | .addImm _ _
  | .setReg _ _ | .orReg _ _ | .andReg _ _ | .xorReg _ _ | .addReg _ _ | .subReg _ _ | .shiftRight _ _ | .subnReg _ _
  | .shiftLeft _ _ | .jumpOffset _ | .skipKeyDown _ | .skipKeyUp _ | .loadDelay _ | .waitKey _ | .registerLoad _ => []

/-! ### The tables of R103 and R201, for an instruction that `exec` runs -/

/-- `pc` after a skip whose condition is `c` (R103). -/
def skipTarget (c : Prop) [Decidable c] (s : State) : Word := if c then s.pc + 4 else s.pc + 2

/-- The new `pc` of an instruction that completes (R103): "apply exactly one, never more". -/
def pcPolicy (i : Instr) (s : State) : Word :=
  match i with
  | .clearScreen | .setImm _ _ | .addImm _ _ | .setReg _ _ | .orReg _ _ | .andReg _ _ | .xorReg _ _ | .addReg _ _
  | .subReg _ _ | .shiftRight _ _ | .subnReg _ _ | .shiftLeft _ _ | .setIndex _ | .randMask _ _ | .draw _ _ _
  | .loadDelay _ | .setDelay _ | .setSound _ | .addIndex _ | .fontAddress _ | .storeBcd _ | .registerDump _
  | .registerLoad _ => s.pc + 2
  | .skipEqImm x nn => skipTarget (s.reg x = nn) s
  | .skipNeqImm x nn => skipTarget (s.reg x ≠ nn) s
  | .skipEqReg x y => skipTarget (s.reg x = s.reg y) s
  | .skipNeqReg x y => skipTarget (s.reg x ≠ s.reg y) s
  | .skipKeyDown x => skipTarget (s.keyCur.toList[(s.reg x).toNat]? = some true) s
  | .skipKeyUp x => skipTarget (s.keyCur.toList[(s.reg x).toNat]? = some false) s
  | .jump nnn | .call nnn => BitVec.ofNat 16 nnn.toNat
  | .jumpOffset nnn => BitVec.ofNat 16 (nnn.toNat + (s.reg 0).toNat)
  | .ret => (s.stk.toList.take s.sp.val).getLastD 0 + 2
  | .waitKey _ => if s.keyCur = s.keyPrev then s.pc else s.pc + 2

/-- The one own check of an instruction and the error it raises (R201, R211). -/
def ErrorCondition (i : Instr) (s : State) (f : Fault) : Prop :=
  match i with
  | .call _ => f = .stackOverflow ∧ s.sp.val = 16
  | .ret => f = .stackUnderflow ∧ s.sp.val = 0
  | .draw _ _ n => f = .addressOutOfRange ∧ 1 ≤ n.toNat ∧ 4095 < s.index.toNat + n.toNat - 1
  | .registerLoad x => f = .addressOutOfRange ∧ 4095 < s.index.toNat + x.val
  | .storeBcd _ =>
    (f = .addressOutOfRange ∧ 4095 < s.index.toNat + 2) ∨ (f = .writeProtected ∧ s.index.toNat < 0x200)
  | .registerDump x =>
    (f = .addressOutOfRange ∧ 4095 < s.index.toNat + x.val) ∨ (f = .writeProtected ∧ s.index.toNat < 0x200)
  | .skipKeyDown x | .skipKeyUp x => f = .keyIndexOutOfRange ∧ 15 < (s.reg x).toNat
  | .clearScreen | .jump _ | .skipEqImm _ _ | .skipNeqImm _ _ | .skipEqReg _ _ | .skipNeqReg _ _ | .setImm _ _
  | .addImm _ _ | .setReg _ _ | .orReg _ _ | .andReg _ _ | .xorReg _ _ | .addReg _ _ | .subReg _ _ | .shiftRight _ _
  | .subnReg _ _ | .shiftLeft _ _ | .setIndex _ | .jumpOffset _ | .randMask _ _ | .loadDelay _ | .waitKey _
  | .setDelay _ | .setSound _ | .addIndex _ | .fontAddress _ => False

end Sys2Proof.Machine
end

