-- ==== Sys2Proof/WellFormed.lean ====
section
/-! DEFINITION. The operand check of rules R83 and R89: "An operand out of range is an assembly error, not an
encoding." It is written over raw numbers, as an assembler reads them; the operand types of `Instr` carry its result,
so every `Instr` passes it (Laws/PerInstr.lean). -/

namespace Sys2Proof

/-- The four kinds of operand (R81, R89). -/
inductive OperandKind where
  | register
  | nibble
  | byte
  | address
deriving DecidableEq, Repr

/-- The first number that is out of range for an operand of this kind (R83, R89). -/
def OperandKind.bound : OperandKind → Nat
  | .register => 16
  | .nibble => 16
  | .byte => 256
  | .address => 4096

/-- Whether these numbers are operands of these kinds: as many as the format has, each in range (R89). -/
def operandsOk : List OperandKind → List Nat → Bool
  | [], [] => true
  | k :: ks, v :: vs => decide (v < k.bound) && operandsOk ks vs
  | _, _ => false

/-- The operands of an instruction, kind and value, in the order of its assembler form (R89). The ignored `y` of the
two shifts is among them (R87; log 9). -/
def Instr.operands : Instr → List (OperandKind × Nat)
  | .clearScreen | .ret => []
  | .jump nnn | .call nnn | .setIndex nnn | .jumpOffset nnn => [(.address, nnn.toNat)]
  | .skipEqImm x nn | .skipNeqImm x nn | .setImm x nn | .addImm x nn | .randMask x nn =>
    [(.register, x.val), (.byte, nn.toNat)]
  | .skipEqReg x y | .skipNeqReg x y | .setReg x y | .orReg x y | .andReg x y | .xorReg x y | .addReg x y
  | .subReg x y | .shiftRight x y | .subnReg x y | .shiftLeft x y => [(.register, x.val), (.register, y.val)]
  | .draw x y n => [(.register, x.val), (.register, y.val), (.nibble, n.toNat)]
  | .skipKeyDown x | .skipKeyUp x | .loadDelay x | .waitKey x | .setDelay x | .setSound x | .addIndex x
  | .fontAddress x | .storeBcd x | .registerDump x | .registerLoad x => [(.register, x.val)]

/-- An instruction is well-formed when its operands pass the check of R89. -/
def Instr.wellFormed (i : Instr) : Bool :=
  operandsOk (i.operands.map (·.1)) (i.operands.map (·.2))

end Sys2Proof
end

