-- ==== Sys2Proof/Certificates/Slice0/Obligations.lean ====
section
/-! DEFINITION. The statements for the provers. A docstring names the rule a statement formalises, and says where it
rests on a decision of the spec's own (D<n>) or on a choice of the model (log n). -/

open Sys2Proof Sys2Proof.Machine

/-! ### Encoding -/

/-- R85, R91: decoding the bytes of any instruction, every operand at every value its field admits, gives it back and
leaves the rest of the stream. The opcode numbers are general knowledge (G1; log 3). -/
def Obligations.DecodeOfEncodeIsIdentity : Prop :=
  ∀ (i : Instr) (rest : List Byte), i.wellFormed = true ∧ decodeBytes (encodeBytes i ++ rest) = .ok (i, rest)

/-- R85, R91: each word has one meaning, and no bit of it is dropped (the `y` the shifts ignore is kept: log 9). -/
def Obligations.EncodeOfDecodeIsIdentity : Prop :=
  ∀ (op : Word) (i : Instr), decodeWord op = .ok i → encode i = op

/-- R84: "the word `op` selects the row iff `op & mask = match`", and at most one row matches any word. The numbers are
general knowledge (G1; log 3), the exact matching is D8 (log 4). -/
def Obligations.WordSelectsTheRowItMatches : Prop :=
  ∀ (op : Word) (i : Instr),
    op &&& i.pattern.1 = i.pattern.2 ↔ ∃ j, decodeWord op = .ok j ∧ j.pattern = i.pattern

/-- R86: the unrecognized words, class by class. Rests on D8 and D9 (logs 3, 4). -/
def Obligations.UnrecognizedWordsAreThoseListed : Prop :=
  ∀ op : Word, decodeWord op = .error .unknownOpcode ↔
    (op.toNat / 4096 = 0 ∧ op.toNat ≠ 0x00E0 ∧ op.toNat ≠ 0x00EE) ∨
    (op.toNat / 4096 = 5 ∧ op.toNat % 16 ≠ 0) ∨
    (op.toNat / 4096 = 8 ∧ op.toNat % 16 ∈ [0x8, 0x9, 0xA, 0xB, 0xC, 0xD, 0xF]) ∨
    (op.toNat / 4096 = 9 ∧ op.toNat % 16 ≠ 0) ∨
    (op.toNat / 4096 = 0xE ∧ op.toNat % 256 ∉ [0x9E, 0xA1]) ∨
    (op.toNat / 4096 = 0xF ∧ op.toNat % 256 ∉ [0x07, 0x0A, 0x15, 0x18, 0x1E, 0x29, 0x33, 0x55, 0x65])

/-- The spec's worked encodings, R91 and S10: the bytes of the document's program and of three further words (G1;
log 3). -/
def Obligations.WorkedExamplesDecode : Prop :=
  decodeBytes [0x60, 0x0A, 0x61, 0x05] = .ok (.setImm 0 0x0A, [0x61, 0x05]) ∧
  decodeBytes [0x61, 0x05] = .ok (.setImm 1 0x05, []) ∧
  decodeBytes [0x80, 0x14] = .ok (.addReg 0 1, []) ∧
  decodeBytes [0xD1, 0x25] = .ok (.draw 1 2 5, []) ∧
  decodeBytes [0xF2, 0x65] = .ok (.registerLoad 2, []) ∧
  decodeBytes [0x12, 0x04] = .ok (.jump 0x204, [])

/-! ### The step -/

/-- R100: when the two bytes at a fetchable `pc` decode to an instruction, the step is that instruction's meaning in
the same state and nothing else. -/
def Obligations.StepRunsTheDecodedInstruction : Prop :=
  ∀ (s : State) (i : Instr), s.Fetchable → s.NextIs i → step s = exec i s

/-- R52: the fetched word is `256 x M[pc] + M[pc+1]`; the lower byte address holds `class` and `x`, the higher `nn`. -/
def Obligations.FetchIsBigEndian : Prop :=
  ∀ s : State, s.Fetchable → ∃ op, fetch s = .ok op ∧
    op.toNat = 256 * (s.byteAt s.pc.toNat).toNat + (s.byteAt (s.pc.toNat + 1)).toNat ∧
    (s.byteAt s.pc.toNat).toNat = 16 * (fieldClass op).toNat + (fieldX op).val ∧
    s.byteAt (s.pc.toNat + 1) = fieldNN op

/-- R101, R211: when a step fails to fetch, and that no instruction raises a fetch error. Rests on D1, D2 (log 12). -/
def Obligations.FetchErrorsExactlyAtBadPc : Prop :=
  ∀ s : State,
    (step s = .fault .fetchOutOfRange ↔ 4094 < s.pc.toNat) ∧
    (step s = .fault .fetchMisaligned ↔ s.pc.toNat ≤ 4094 ∧ s.pc.toNat % 2 = 1)

/-- R105: an unrecognized word advances `pc` by 2, changes nothing else, and the step reports `UnknownOpcode`. -/
def Obligations.UnrecognizedWordAdvancesPc : Prop :=
  ∀ s : State, s.Fetchable →
    decodeBytes [s.byteAt s.pc.toNat, s.byteAt (s.pc.toNat + 1)] = .error .unknownOpcode →
    ∃ t, step s = .next t ∧ t.pc = s.pc + 2 ∧ UnchangedExcept [] [] s t ∧ stepResult s = ⟨.unknownOpcode, false⟩

/-- R201, R211: an instruction raises an error exactly under its own check, and is refused never; so every instruction
completes wherever its check passes. Rests on D3 to D5 (logs 11, 13). -/
def Obligations.InstructionsFailExactlyByTheErrorTable : Prop :=
  ∀ (i : Instr) (s : State),
    (∀ f, exec i s = .fault f ↔ ErrorCondition i s f) ∧ ∀ e, exec i s ≠ .refused e

/-- R103: every instruction that completes applies exactly its row of the program-counter policy. -/
def Obligations.ProgramCounterFollowsThePolicy : Prop :=
  ∀ (i : Instr) (s t : State), exec i s = .next t → t.pc = pcPolicy i s

/-- R36: an instruction that completes writes no state but what R36 names for it. -/
def Obligations.OnlyTheNamedStateIsWritten : Prop :=
  ∀ (i : Instr) (s t : State), exec i s = .next t → UnchangedExcept (writtenRegs i) (writtenParts i) s t

/-- R100: a step moves neither the timers, nor the sound signal, nor the keys, except that `set-delay` and `set-sound`
write `DT` and `ST`. -/
def Obligations.StepLeavesTimersSoundAndKeysAlone : Prop :=
  ∀ s t : State, step s = .next t →
    t.snd = s.snd ∧ t.keyCur = s.keyCur ∧ t.keyPrev = s.keyPrev ∧
    ((∀ x, ¬s.NextIs (.setDelay x)) → t.dt = s.dt) ∧ ((∀ x, ¬s.NextIs (.setSound x)) → t.st = s.st)

/-- R104: what a step reports. Rests on D17 (log 6). -/
def Obligations.StepResultReportsWhatHappened : Prop :=
  ∀ s : State,
    (∀ f, (stepResult s).status = .fatal f ↔ step s = .fault f) ∧
    ((stepResult s).status = .unknownOpcode ↔
      s.Fetchable ∧ decodeBytes [s.byteAt s.pc.toNat, s.byteAt (s.pc.toNat + 1)] = .error .unknownOpcode) ∧
    ((stepResult s).status = .stalled ↔ s.Fetchable ∧ (∃ x, s.NextIs (.waitKey x)) ∧ s.keyCur = s.keyPrev) ∧
    ((stepResult s).changed = true ↔
      s.Fetchable ∧ (s.NextIs .clearScreen ∨ (∃ x y n, s.NextIs (.draw x y n)) ∧ ∃ t, step s = .next t))

/-- R106: a fatal error is reported and leaves no trace, so the same operation fails again. Rests on D6 (log 5). -/
def Obligations.FatalErrorLeavesTheStateUnchanged : Prop :=
  ∀ (s : State) (f : Fault) (rnd : Byte), step s = .fault f → hostOp (.step rnd) s = (.step ⟨.fatal f, false⟩, s)

/-- R108, R252: the random input changes nothing but the result of `rand-mask`, which is its AND with `nn`. -/
def Obligations.RandomInputReachesOnlyRandMask : Prop :=
  ∀ (s : State) (r r' : Byte),
    ((∀ x nn, ¬s.NextIs (.randMask x nn)) → stepWith r s = stepWith r' s) ∧
    ∀ x nn, s.Fetchable → s.NextIs (.randMask x nn) →
      (stepWith r s).1 = ⟨.ok, false⟩ ∧ (stepWith r s).2.reg x = r &&& nn ∧ (stepWith r s).2.pc = s.pc + 2 ∧
      UnchangedExcept [x] [] s (stepWith r s).2

/-! ### Control transfer -/

/-- R121: `jump` sets `pc` to `nnn`, whatever `nnn`, and changes nothing else. -/
def Obligations.JumpSetsPc : Prop :=
  ∀ (nnn : Addr) (s : State), ∃ t, exec (.jump nnn) s = .next t ∧
    t.pc.toNat = nnn.toNat ∧ UnchangedExcept [] [] s t

/-- R122: `call` saves its own address, or overflows and answers no state. -/
def Obligations.CallPushesItsOwnAddress : Prop :=
  ∀ (nnn : Addr) (s : State),
    (s.sp.val < 16 → ∃ t, exec (.call nnn) s = .next t ∧
      t.pc.toNat = nnn.toNat ∧ t.sp.val = s.sp.val + 1 ∧
      (∀ j : Fin 16, t.stk[j] = if j.val = s.sp.val then s.pc else s.stk[j]) ∧ UnchangedExcept [] [.stack] s t) ∧
    (s.sp.val = 16 → exec (.call nnn) s = .fault .stackOverflow)

/-- R120: `return` goes to the most recent entry plus 2, or underflows. That the popped entry keeps its value is D32
(log 20). -/
def Obligations.ReturnPopsTheLastEntry : Prop :=
  ∀ s : State,
    (∀ k : Fin 16, s.sp.val = k.val + 1 → ∃ t, exec .ret s = .next t ∧
      t.pc = s.stk[k] + 2 ∧ t.sp.val = k.val ∧ (∀ j : Fin 16, t.stk[j] = s.stk[j]) ∧
      UnchangedExcept [] [.stack] s t) ∧
    (s.sp.val = 0 → exec .ret s = .fault .stackUnderflow)

/-- R123: `jump-offset` adds `V[0]`, neither wrapping nor masking, and pushes nothing. -/
def Obligations.JumpOffsetAddsRegisterZero : Prop :=
  ∀ (nnn : Addr) (s : State), ∃ t, exec (.jumpOffset nnn) s = .next t ∧
    t.pc.toNat = nnn.toNat + (s.reg 0).toNat ∧ UnchangedExcept [] [] s t

/-- S5, R120, R122: calls nested as deep as the stack has room, then as many returns, end at the first call's address
plus 2 with the stack as deep as before. -/
def Obligations.NestedCallsReturnInReverse : Prop :=
  ∀ (targets : List Addr) (s : State), targets ≠ [] → s.sp.val + targets.length ≤ 16 →
    ∃ t, execAll (targets.map .call ++ List.replicate targets.length .ret) s = .next t ∧
      t.pc = s.pc + 2 ∧ t.sp = s.sp ∧ (∀ j : Fin 16, j.val < s.sp.val → t.stk[j] = s.stk[j]) ∧
      UnchangedExcept [] [.stack] s t

/-! ### Skips -/

/-- R130, R131: the two skips on an immediate. -/
def Obligations.ImmediateSkips : Prop :=
  ∀ (x : Reg) (nn : Byte) (s : State),
    (∃ t, exec (.skipEqImm x nn) s = .next t ∧
      t.pc = (if s.reg x = nn then s.pc + 4 else s.pc + 2) ∧ UnchangedExcept [] [] s t) ∧
    ∃ t, exec (.skipNeqImm x nn) s = .next t ∧
      t.pc = (if s.reg x = nn then s.pc + 2 else s.pc + 4) ∧ UnchangedExcept [] [] s t

/-- R132, R133: the two skips on a register. -/
def Obligations.RegisterSkips : Prop :=
  ∀ (x y : Reg) (s : State),
    (∃ t, exec (.skipEqReg x y) s = .next t ∧
      t.pc = (if s.reg x = s.reg y then s.pc + 4 else s.pc + 2) ∧ UnchangedExcept [] [] s t) ∧
    ∃ t, exec (.skipNeqReg x y) s = .next t ∧
      t.pc = (if s.reg x = s.reg y then s.pc + 2 else s.pc + 4) ∧ UnchangedExcept [] [] s t

/-! ### Registers and arithmetic -/

/-- R140: `set-imm`. -/
def Obligations.SetImmWritesTheImmediate : Prop :=
  ∀ (x : Reg) (nn : Byte) (s : State), ∃ t, exec (.setImm x nn) s = .next t ∧
    t.reg x = nn ∧ t.pc = s.pc + 2 ∧ UnchangedExcept [x] [] s t

/-- R141: `add-imm` wraps and changes no flag. -/
def Obligations.AddImmWrapsWithoutFlag : Prop :=
  ∀ (x : Reg) (nn : Byte) (s : State), ∃ t, exec (.addImm x nn) s = .next t ∧
    (t.reg x).toNat = ((s.reg x).toNat + nn.toNat) % 256 ∧ t.pc = s.pc + 2 ∧ UnchangedExcept [x] [] s t

/-- R142: `set-reg`. -/
def Obligations.SetRegCopies : Prop :=
  ∀ (x y : Reg) (s : State), ∃ t, exec (.setReg x y) s = .next t ∧
    t.reg x = s.reg y ∧ t.pc = s.pc + 2 ∧ UnchangedExcept [x] [] s t

/-- R143, R144, R145: the bitwise operations, bit by bit, with no flag. -/
def Obligations.BitwiseOperations : Prop :=
  ∀ (x y : Reg) (s : State),
    (∃ t, exec (.orReg x y) s = .next t ∧
      (∀ k < 8, (t.reg x).getLsbD k = ((s.reg x).getLsbD k || (s.reg y).getLsbD k)) ∧
      t.pc = s.pc + 2 ∧ UnchangedExcept [x] [] s t) ∧
    (∃ t, exec (.andReg x y) s = .next t ∧
      (∀ k < 8, (t.reg x).getLsbD k = ((s.reg x).getLsbD k && (s.reg y).getLsbD k)) ∧
      t.pc = s.pc + 2 ∧ UnchangedExcept [x] [] s t) ∧
    ∃ t, exec (.xorReg x y) s = .next t ∧
      (∀ k < 8, (t.reg x).getLsbD k = ((s.reg x).getLsbD k ^^ (s.reg y).getLsbD k)) ∧
      t.pc = s.pc + 2 ∧ UnchangedExcept [x] [] s t

/-- R146: `add-reg`, the sum modulo 256 and the carry; with `x = 15` the carry wins (R153, D7; log 10). -/
def Obligations.AddRegSumAndCarry : Prop :=
  ∀ (x y : Reg) (s : State), ∃ t, exec (.addReg x y) s = .next t ∧
    (x ≠ 15 → (t.reg x).toNat = ((s.reg x).toNat + (s.reg y).toNat) % 256) ∧
    t.reg 15 = (if (s.reg x).toNat + (s.reg y).toNat > 255 then 1 else 0) ∧
    t.pc = s.pc + 2 ∧ UnchangedExcept [x, 15] [] s t

/-- R147, R149: the two subtractions modulo 256 and the no-borrow flag, 1 on equality; with `x = 15` the flag wins
(R153, D7; log 10). -/
def Obligations.SubtractionsAndNoBorrow : Prop :=
  ∀ (x y : Reg) (s : State),
    (∃ t, exec (.subReg x y) s = .next t ∧
      (x ≠ 15 → (t.reg x).toNat = ((s.reg x).toNat + 256 - (s.reg y).toNat) % 256) ∧
      t.reg 15 = (if (s.reg x).toNat ≥ (s.reg y).toNat then 1 else 0) ∧
      t.pc = s.pc + 2 ∧ UnchangedExcept [x, 15] [] s t) ∧
    ∃ t, exec (.subnReg x y) s = .next t ∧
      (x ≠ 15 → (t.reg x).toNat = ((s.reg y).toNat + 256 - (s.reg x).toNat) % 256) ∧
      t.reg 15 = (if (s.reg y).toNat ≥ (s.reg x).toNat then 1 else 0) ∧
      t.pc = s.pc + 2 ∧ UnchangedExcept [x, 15] [] s t

/-- R148, R150, R87: the two shifts, the bit shifted out, and that `y` is ignored; with `x = 15` the flag wins (R153,
D7; log 10). -/
def Obligations.ShiftsAndTheBitShiftedOut : Prop :=
  ∀ (x y : Reg) (s : State),
    (∃ t, exec (.shiftRight x y) s = .next t ∧
      (x ≠ 15 → (t.reg x).toNat = (s.reg x).toNat / 2) ∧ (t.reg 15).toNat = (s.reg x).toNat % 2 ∧
      t.pc = s.pc + 2 ∧ UnchangedExcept [x, 15] [] s t) ∧
    (∃ t, exec (.shiftLeft x y) s = .next t ∧
      (x ≠ 15 → (t.reg x).toNat = (s.reg x).toNat * 2 % 256) ∧ (t.reg 15).toNat = (s.reg x).toNat / 128 ∧
      t.pc = s.pc + 2 ∧ UnchangedExcept [x, 15] [] s t) ∧
    ∀ y', exec (.shiftRight x y) s = exec (.shiftRight x y') s ∧ exec (.shiftLeft x y) s = exec (.shiftLeft x y') s

/-- R151: `rand-mask` writes some byte ANDed with `nn`; where a byte has been injected it is that one, and it is then
spent (log 2). Nothing is said of the byte otherwise. -/
def Obligations.RandMaskMasksTheRandomByte : Prop :=
  ∀ (x : Reg) (nn : Byte) (s : State), ∃ t rnd, exec (.randMask x nn) s = .next t ∧
    t.reg x = rnd &&& nn ∧ (∀ b rest, s.rndIn = b :: rest → rnd = b ∧ t.rndIn = rest) ∧
    t.pc = s.pc + 2 ∧ UnchangedExcept [x] [.random] s t

/-! ### Index register and memory -/

/-- R160, R162: the two instructions that set `I` outright; the whole `V[x]` enters the glyph address. -/
def Obligations.IndexIsSet : Prop :=
  (∀ (nnn : Addr) (s : State), ∃ t, exec (.setIndex nnn) s = .next t ∧
    t.index.toNat = nnn.toNat ∧ t.pc = s.pc + 2 ∧ UnchangedExcept [] [.index] s t) ∧
  ∀ (x : Reg) (s : State), ∃ t, exec (.fontAddress x) s = .next t ∧
    t.index.toNat = 5 * (s.reg x).toNat ∧ t.pc = s.pc + 2 ∧ UnchangedExcept [] [.index] s t

/-- R161: `add-index` keeps all 16 bits of the sum and flags a sum above 0xFFF. Rests on D11 (log 14), and on D7 for
`x = 15` (log 10). -/
def Obligations.AddIndexSumAndFlag : Prop :=
  ∀ (x : Reg) (s : State), ∃ t, exec (.addIndex x) s = .next t ∧
    t.index.toNat = (s.index.toNat + (s.reg x).toNat) % 65536 ∧
    t.reg 15 = (if (s.index.toNat + (s.reg x).toNat) % 65536 > 0xFFF then 1 else 0) ∧
    t.pc = s.pc + 2 ∧ UnchangedExcept [15] [.index] s t

/-- R163: `store-bcd`, where its range is writable: the three digits, every other byte as before. The range rests on
D3, D4 (log 11); the premise on memory is the invariant of log 22. -/
def Obligations.StoreBcdWritesThreeDigits : Prop :=
  ∀ (x : Reg) (s : State), s.MemCanonical → 0x200 ≤ s.dataAddr → s.dataAddr + 2 ≤ 4095 →
    ∃ t, exec (.storeBcd x) s = .next t ∧
      (t.byteAt s.dataAddr).toNat = (s.reg x).toNat / 100 ∧
      (t.byteAt (s.dataAddr + 1)).toNat = (s.reg x).toNat / 10 % 10 ∧
      (t.byteAt (s.dataAddr + 2)).toNat = (s.reg x).toNat % 10 ∧
      (∀ a, ¬(s.dataAddr ≤ a ∧ a < s.dataAddr + 3) → t.byteAt a = s.byteAt a) ∧
      t.pc = s.pc + 2 ∧ UnchangedExcept [] [.memory] s t

/-- R164: `register-dump`, where its range is writable: `V[0..x]` ascending from `I`, every other byte as before. The
range rests on D3, D4 (log 11); the premise on memory is the invariant of log 22. -/
def Obligations.RegisterDumpStoresRegisters : Prop :=
  ∀ (x : Reg) (s : State), s.MemCanonical → 0x200 ≤ s.dataAddr → s.dataAddr + x.val ≤ 4095 →
    ∃ t, exec (.registerDump x) s = .next t ∧
      (∀ k : Reg, k ≤ x → t.byteAt (s.dataAddr + k.val) = s.reg k) ∧
      (∀ a, ¬(s.dataAddr ≤ a ∧ a < s.dataAddr + (x.val + 1)) → t.byteAt a = s.byteAt a) ∧
      t.pc = s.pc + 2 ∧ UnchangedExcept [] [.memory] s t

/-- R165: `register-load`, where its range exists: `V[0..x]` from ascending addresses, the other registers as before.
The range rests on D3 (log 11). -/
def Obligations.RegisterLoadReadsRegisters : Prop :=
  ∀ (x : Reg) (s : State), s.dataAddr + x.val ≤ 4095 →
    ∃ t, exec (.registerLoad x) s = .next t ∧
      (∀ k : Reg, k ≤ x → t.reg k = s.byteAt (s.dataAddr + k.val)) ∧ (∀ k : Reg, x < k → t.reg k = s.reg k) ∧
      t.pc = s.pc + 2 ∧ UnchangedExcept (writtenRegs (.registerLoad x)) [] s t

/-- R63, R107: two registers dumped over an even address are the next word fetched from it, and an instruction that
overwrites itself completes all the same. -/
def Obligations.StoredBytesAreFetched : Prop :=
  ∀ (x : Reg) (s : State), s.MemCanonical → 1 ≤ x.val → 0x200 ≤ s.dataAddr → s.dataAddr + x.val ≤ 4095 →
    s.dataAddr % 2 = 0 →
    ∃ t, exec (.registerDump x) s = .next t ∧
      fetch (t.setPc s.index) = .ok (wordOfBytes (s.reg 0) (s.reg 1)) ∧ t.pc = s.pc + 2

/-- Log 22: two memories in canonical form that read the same everywhere are the same data. -/
def Obligations.CanonicalMemoryIsDeterminedByItsReads : Prop :=
  ∀ (font : FontTable) (m m' : Memory), Memory.wf font m = true → Memory.wf font m' = true →
    (∀ a, Memory.read font m a = Memory.read font m' a) → m = m'

/-! ### Display -/

/-- R170: `clear-screen` zeroes every cell, marks the framebuffer changed, and leaves `VF` alone. -/
def Obligations.ClearScreenBlanksEveryCell : Prop :=
  ∀ s : State, ∃ t, exec .clearScreen s = .next t ∧
    (∀ cx cy, t.cell cx cy = false) ∧ t.fbChanged = true ∧ completedResult .clearScreen s = ⟨.ok, true⟩ ∧
    t.pc = s.pc + 2 ∧ UnchangedExcept [] [.cells, .fbChanged] s t

/-- R171, R172: `draw` where its sprite can be read: exactly the covered cells flip, with both coordinates wrapped, and
`VF` tells whether a covered cell was 1. The position is D12 (log 15), the range D3 (log 11). -/
def Obligations.DrawFlipsTheCoveredCells : Prop :=
  ∀ (x y : Reg) (n : Nibble) (s : State), n.toNat = 0 ∨ s.dataAddr + n.toNat - 1 ≤ 4095 →
    ∃ t, exec (.draw x y n) s = .next t ∧
      (∀ cx cy, t.cell cx cy = if s.SpriteCovers x y n cx cy then !s.cell cx cy else s.cell cx cy) ∧
      ((∃ cx cy, s.SpriteCovers x y n cx cy ∧ s.cell cx cy = true) → t.reg 15 = 1) ∧
      ((∀ cx cy, s.SpriteCovers x y n cx cy → s.cell cx cy = false) → t.reg 15 = 0) ∧
      t.fbChanged = true ∧ completedResult (.draw x y n) s = ⟨.ok, true⟩ ∧
      t.pc = s.pc + 2 ∧ UnchangedExcept [15] [.cells, .fbChanged] s t

/-- R173: `draw` of no rows reads no memory, whatever `I`, moves no cell, clears `VF` and still marks the framebuffer
changed. Rests on D26 (log 15). -/
def Obligations.DrawOfNoRowsOnlyClearsTheFlag : Prop :=
  ∀ (x y : Reg) (s : State), ∃ t, exec (.draw x y 0) s = .next t ∧
    t.reg 15 = 0 ∧ t.fbChanged = true ∧ t.pc = s.pc + 2 ∧ UnchangedExcept [15] [.fbChanged] s t

/-- R173, C9: the same sprite drawn twice at the same position restores every cell, and the second draw collides
exactly when the sprite covers a cell that was 0 before the first. -/
def Obligations.DrawTwiceRestores : Prop :=
  ∀ (x y : Reg) (n : Nibble) (s t u : State),
    exec (.draw x y n) s = .next t → t.reg x = s.reg x → t.reg y = s.reg y → exec (.draw x y n) t = .next u →
    (∀ cx cy, u.cell cx cy = s.cell cx cy) ∧
      (u.reg 15 = 1 ↔ ∃ cx cy, s.SpriteCovers x y n cx cy ∧ s.cell cx cy = false)

/-! ### Keypad and timers -/

/-- R180, R181: the level queries read `KEY_CUR` at the key that `V[x]` numbers; a number above 15 is an error (D5;
log 13). -/
def Obligations.KeySkips : Prop :=
  ∀ (x : Reg) (s : State),
    (∀ k : Reg, (s.reg x).toNat = k.val →
      (∃ t, exec (.skipKeyDown x) s = .next t ∧
        t.pc = (if s.keyCur[k] = true then s.pc + 4 else s.pc + 2) ∧ UnchangedExcept [] [] s t) ∧
      ∃ t, exec (.skipKeyUp x) s = .next t ∧
        t.pc = (if s.keyCur[k] = true then s.pc + 2 else s.pc + 4) ∧ UnchangedExcept [] [] s t) ∧
    (15 < (s.reg x).toNat →
      exec (.skipKeyDown x) s = .fault .keyIndexOutOfRange ∧ exec (.skipKeyUp x) s = .fault .keyIndexOutOfRange)

/-- R182: `wait-key` with an edge writes the lowest changed key and goes on; with none it stalls and changes nothing.
That it leaves the key vectors, so that the edge is not consumed, is D15 (log 17). -/
def Obligations.WaitKeyTakesTheLowestEdgeOrStalls : Prop :=
  ∀ (x : Reg) (s : State),
    (∀ k, s.LowestEdge k → ∃ t, exec (.waitKey x) s = .next t ∧ (t.reg x).toNat = k.val ∧ t.pc = s.pc + 2 ∧
      completedResult (.waitKey x) s = ⟨.ok, false⟩ ∧ UnchangedExcept [x] [] s t) ∧
    (s.keyCur = s.keyPrev →
      exec (.waitKey x) s = .next s ∧ completedResult (.waitKey x) s = ⟨.stalled, false⟩)

/-- R186: the edge query finds the lowest key that differs, in either direction, and none when the vectors agree. -/
def Obligations.EdgeIsTheLowestChangedKey : Prop :=
  ∀ s : State, (∀ k, s.edge = some k ↔ s.LowestEdge k) ∧ (s.edge = none ↔ s.keyCur = s.keyPrev)

/-- R183: `load-delay`. -/
def Obligations.LoadDelayReadsTheTimer : Prop :=
  ∀ (x : Reg) (s : State), ∃ t, exec (.loadDelay x) s = .next t ∧
    t.reg x = s.dt ∧ t.pc = s.pc + 2 ∧ UnchangedExcept [x] [] s t

/-- R184, R185: `set-delay` and `set-sound`; neither touches the sound signal (D14; log 16). -/
def Obligations.TimersAreSet : Prop :=
  ∀ (x : Reg) (s : State),
    (∃ t, exec (.setDelay x) s = .next t ∧
      t.dt = s.reg x ∧ t.pc = s.pc + 2 ∧ UnchangedExcept [] [.delayTimer] s t) ∧
    ∃ t, exec (.setSound x) s = .next t ∧
      t.st = s.reg x ∧ t.pc = s.pc + 2 ∧ UnchangedExcept [] [.soundTimer] s t

/-! ### Host operations -/

/-- R34, R240: the state after reset, for the machine's own reset state and for a reset issued in any state; two resets
equal one, and the configuration stays. -/
def Obligations.ResetGivesTheStatedValues : Prop :=
  State.reset.AtReset ∧ ∀ s : State,
    (hostOp .reset s).2.AtReset ∧ (hostOp .reset s).2.cfg = s.cfg ∧ hostOp .reset (hostOp .reset s).2 = hostOp .reset s

/-- R65, R204, R242: a load of at most 3584 bytes reads back and touches nothing else; a longer one is rejected whole.
That the bytes beyond the program and `pc` are kept, and that length 0 and odd lengths are accepted, is D21 (log 19).
The premise on memory is the invariant of log 22 (DESIGN CHOICE). -/
def Obligations.LoadedBytesReadBack : Prop :=
  ∀ (bytes : List Byte) (s : State), s.MemCanonical →
    (bytes.length ≤ 3584 → ∃ t, hostOp (.loadProgram bytes) s = (.load .ok, t) ∧
      (∀ (k : Nat) (h : k < bytes.length), t.byteAt (0x200 + k) = bytes[k]) ∧
      (∀ a, ¬(0x200 ≤ a ∧ a < 0x200 + bytes.length) → t.byteAt a = s.byteAt a) ∧
      t.pc = s.pc ∧ UnchangedExcept [] [.memory] s t) ∧
    (3584 < bytes.length → hostOp (.loadProgram bytes) s = (.load .malformedProgram, s))

/-- R218: a sample becomes the current vector and the current one the previous; the same sample again leaves no edge.
Rests on D15 (log 17). -/
def Obligations.InputSampleShiftsTheKeyVectors : Prop :=
  ∀ (keys : Vector Bool 16) (s : State), ∃ t, hostOp (.setInput keys) s = (.nothing, t) ∧
    t.keyCur = keys ∧ t.keyPrev = s.keyCur ∧ t.pc = s.pc ∧ UnchangedExcept [] [.keypad] s t ∧
    (t.edge = none ↔ keys = s.keyCur) ∧ (hostOp (.setInput keys) t).2.edge = none

/-- R217, R219: one tick; the sound signal says whether this tick took `ST` from 1 to 0, and reading it changes
nothing. Rests on D14 (log 16). -/
def Obligations.TickDecrementsTheTimers : Prop :=
  ∀ s : State, ∃ t, hostOp .tickTimers s = (.nothing, t) ∧
    t.dt.toNat = s.dt.toNat - 1 ∧ t.st.toNat = s.st.toNat - 1 ∧ (t.snd = true ↔ s.st.toNat = 1) ∧ t.pc = s.pc ∧
    UnchangedExcept [] [.delayTimer, .soundTimer, .soundSignal] s t ∧ hostOp .soundSignal t = (.signal t.snd, t)

/-- R183, R217: however many ticks, the delay timer is what it was minus their number, floored at 0. -/
def Obligations.ManyTicksFloorTheDelayTimer : Prop :=
  ∀ (n : Nat) (s : State), (hostRun (List.replicate n .tickTimers) s).dt.toNat = s.dt.toNat - n

/-- R220: the snapshot holds cell `(cx, cy)` at position `64 * cy + cx`, and takes nothing but `FB_CHANGED`. Rests on
D20, D13 (logs 18, 16). -/
def Obligations.SnapshotIsRowMajor : Prop :=
  ∀ s : State, ∃ view t, hostOp .framebufferSnapshot s = (.cells view, t) ∧ view.length = 2048 ∧
    (∀ (cx : Fin 64) (cy : Fin 32), view[64 * cy.val + cx.val]? = some (s.cell cx cy)) ∧
    t.fbChanged = false ∧ t.pc = s.pc ∧ UnchangedExcept [] [.fbChanged] s t

/-- R250, R121: at the model's end of a run (log 25: DESIGN CHOICE) a step changes nothing and reports `Ok`. -/
def Obligations.IdleStepChangesNothing : Prop :=
  ∀ s : State, s.Idle → step s = .next s ∧ stepResult s = ⟨.ok, false⟩

/-! ### Invariants -/

/-- R35: the invariants hold after reset, whatever the core's font and whatever state the reset is issued in. -/
def Obligations.ResetEstablishesTheInvariant : Prop :=
  State.reset.Inv ∧ ∀ s : State, (hostOp .reset s).2.Inv

/-- R35: every step keeps the invariants: memory canonical, [0, 0x200) as at reset, live stack entries fetchable, `pc`
at most 0x10FE. -/
def Obligations.StepKeepsTheInvariant : Prop :=
  ∀ s t : State, s.Inv → step s = .next t → t.Inv

/-- R35, R213: every sequence of host operations, in any order, keeps the invariants. -/
def Obligations.HostRunKeepsTheInvariant : Prop :=
  ∀ (ops : List HostOp) (s : State), s.Inv → (hostRun ops s).Inv

/-- R35: `M[0..0x1FF]` never changes and neither does the configuration, whatever the host does. -/
def Obligations.LowMemoryNeverChanges : Prop :=
  ∀ (ops : List HostOp) (s : State), s.Inv →
    (hostRun ops s).cfg = s.cfg ∧ ∀ a < 0x200, (hostRun ops s).byteAt a = s.byteAt a
end

