-- ==== Sys2Proof/Laws/Memory.lean ====
section
/-! SUPPORT. The laws of memory: what a write reads back as, what it leaves alone, and that it keeps the canonical form
(log 22). -/

namespace Sys2Proof.Machine

namespace Memory

variable {font : FontTable} {m : Memory} {a b : Nat} {v : Byte}

theorem wf_cons_iff {c : Host.Cell} :
    Memory.wf font (c :: m) = true ↔
      c.1 < 4096 ∧ c.2 ≠ Memory.unlisted font c.1 ∧ (∀ d ∈ m, c.1 < d.1) ∧ Memory.wf font m = true := by
  simp [Memory.wf, and_assoc]

/-- An address below every listed one reads as unlisted. -/
theorem read_of_below (h : ∀ d ∈ m, a < d.1) : Memory.read font m a = Memory.unlisted font a := by
  induction m with
  | nil => rfl
  | cons c m ih =>
    have hc : c.1 ≠ a := by have := h c (by simp); omega
    simp only [Memory.read, hc, if_false]
    exact ih fun d hd => h d (by simp [hd])

theorem read_cons_other {d : Nat} (h : d ≠ a) : Memory.read font (Memory.cons font a v m) d = Memory.read font m d := by
  unfold Memory.cons
  split
  · rfl
  · simp [Memory.read, Ne.symm h]

theorem read_cons_same (h : ∀ d ∈ m, a < d.1) : Memory.read font (Memory.cons font a v m) a = v := by
  unfold Memory.cons
  split
  · next hv => rw [read_of_below h, hv]
  · simp [Memory.read]

/-- A write leaves every other address alone, whatever the list. -/
theorem read_put_other {d : Nat} (h : d ≠ a) : Memory.read font (Memory.put font m a v) d = Memory.read font m d := by
  induction m with
  | nil => simp [Memory.put, read_cons_other h]
  | cons c m ih =>
    simp only [Memory.put]
    split
    · exact read_cons_other h
    · split
      · next hc => simp [read_cons_other h, Memory.read, ← hc, Ne.symm h]
      · simp only [Memory.read, ih]

/-- A write reads back. -/
theorem read_put_same (hm : Memory.wf font m = true) : Memory.read font (Memory.put font m a v) a = v := by
  induction m with
  | nil => exact read_cons_same (by simp)
  | cons c m ih =>
    obtain ⟨-, -, hlt, hm'⟩ := wf_cons_iff.1 hm
    simp only [Memory.put]
    split
    · next hac =>
      refine read_cons_same fun d hd => ?_
      rcases List.mem_cons.1 hd with rfl | hd
      · exact hac
      · have := hlt d hd; omega
    · split
      · next hac => exact read_cons_same fun d hd => by have := hlt d hd; omega
      · next hac => simp [Memory.read, Ne.symm hac, ih hm']

theorem mem_cons {d : Host.Cell} (h : d ∈ Memory.cons font a v m) : d.1 = a ∨ d ∈ m := by
  unfold Memory.cons at h
  split at h
  · exact .inr h
  · rcases List.mem_cons.1 h with rfl | h
    · exact .inl rfl
    · exact .inr h

/-- A write lists no address but its own and those listed before. -/
theorem mem_put {d : Host.Cell} (h : d ∈ Memory.put font m a v) : d.1 = a ∨ d ∈ m := by
  induction m with
  | nil => exact mem_cons h
  | cons c m ih =>
    simp only [Memory.put] at h
    split at h
    · exact mem_cons h
    · split at h
      · exact (mem_cons h).imp_right fun h => by simp [h]
      · rcases List.mem_cons.1 h with rfl | h
        · exact .inr (by simp)
        · exact (ih h).imp_right fun h => by simp [h]

theorem wf_cons (ha : a < 4096) (hm : Memory.wf font m = true) (h : ∀ d ∈ m, a < d.1) :
    Memory.wf font (Memory.cons font a v m) = true := by
  unfold Memory.cons
  split
  · exact hm
  · next hv => exact wf_cons_iff.2 ⟨ha, hv, h, hm⟩

/-- A write keeps the canonical form. -/
theorem wf_put (ha : a < 4096) (hm : Memory.wf font m = true) : Memory.wf font (Memory.put font m a v) = true := by
  induction m with
  | nil => exact wf_cons ha hm (by simp)
  | cons c m ih =>
    obtain ⟨hc, hcv, hlt, hm'⟩ := wf_cons_iff.1 hm
    simp only [Memory.put]
    split
    · next hac =>
      refine wf_cons ha hm fun d hd => ?_
      rcases List.mem_cons.1 hd with rfl | hd
      · exact hac
      · have := hlt d hd; omega
    · split
      · next hac => exact wf_cons ha hm' fun d hd => by have := hlt d hd; omega
      · next h1 h2 =>
        refine wf_cons_iff.2 ⟨hc, hcv, fun d hd => ?_, ih hm'⟩
        rcases mem_put hd with hd | hd
        · omega
        · exact hlt d hd

/-- Writing a list of bytes keeps the canonical form when its last address exists. -/
theorem wf_putBytes {bs : List Byte} (ha : a + bs.length ≤ 4096) (hm : Memory.wf font m = true) :
    Memory.wf font (Memory.putBytes font m a bs) = true := by
  induction bs generalizing m a with
  | nil => exact hm
  | cons b bs ih =>
    simp only [List.length_cons] at ha
    exact ih (by omega) (wf_put (by omega) hm)

/-- Writing a list of bytes leaves every address outside it alone, whatever the list of cells. -/
theorem read_putBytes_outside {bs : List Byte} {d : Nat} (h : ¬(a ≤ d ∧ d < a + bs.length)) :
    Memory.read font (Memory.putBytes font m a bs) d = Memory.read font m d := by
  induction bs generalizing m a with
  | nil => rfl
  | cons b bs ih =>
    simp only [List.length_cons] at h
    rw [Memory.putBytes, ih (by omega), read_put_other (by omega)]

/-- A list of bytes reads back, each byte at its own address. -/
theorem read_putBytes_inside {bs : List Byte} (ha : a + bs.length ≤ 4096) (hm : Memory.wf font m = true)
    {k : Nat} (hk : k < bs.length) : Memory.read font (Memory.putBytes font m a bs) (a + k) = bs[k] := by
  induction bs generalizing m a k with
  | nil => simp at hk
  | cons b bs ih =>
    simp only [List.length_cons] at ha hk
    have hm' := wf_put (v := b) (a := a) (by omega) hm
    cases k with
    | zero => rw [Memory.putBytes, read_putBytes_outside (by omega)]; exact read_put_same hm
    | succ k =>
      have := ih (a := a + 1) (by omega) hm' (k := k) (by omega)
      rw [show a + 1 + k = a + (k + 1) by omega] at this
      simpa [Memory.putBytes] using this

end Memory

end Sys2Proof.Machine
end

