-- ==== Sys2Proof/Laws/State.lean ====
section
/-! SUPPORT. One lemma per field per update of State, each true by rfl. -/

namespace Sys2Proof.Machine.State

section
variable (s : State) (a : Vector Byte 16)
@[simp] theorem setRegs_v : (s.setRegs a).v = a := rfl
@[simp] theorem setRegs_index : (s.setRegs a).index = s.index := rfl
@[simp] theorem setRegs_pc : (s.setRegs a).pc = s.pc := rfl
@[simp] theorem setRegs_stk : (s.setRegs a).stk = s.stk := rfl
@[simp] theorem setRegs_sp : (s.setRegs a).sp = s.sp := rfl
@[simp] theorem setRegs_dt : (s.setRegs a).dt = s.dt := rfl
@[simp] theorem setRegs_st : (s.setRegs a).st = s.st := rfl
@[simp] theorem setRegs_keyCur : (s.setRegs a).keyCur = s.keyCur := rfl
@[simp] theorem setRegs_keyPrev : (s.setRegs a).keyPrev = s.keyPrev := rfl
@[simp] theorem setRegs_fb : (s.setRegs a).fb = s.fb := rfl
@[simp] theorem setRegs_fbChanged : (s.setRegs a).fbChanged = s.fbChanged := rfl
@[simp] theorem setRegs_snd : (s.setRegs a).snd = s.snd := rfl
@[simp] theorem setRegs_mem : (s.setRegs a).mem = s.mem := rfl
@[simp] theorem setRegs_cfg : (s.setRegs a).cfg = s.cfg := rfl
@[simp] theorem setRegs_rndIn : (s.setRegs a).rndIn = s.rndIn := rfl
@[simp] theorem setRegs_rndCount : (s.setRegs a).rndCount = s.rndCount := rfl
end

section
variable (s : State) (a : Word)
@[simp] theorem setIndex_v : (s.setIndex a).v = s.v := rfl
@[simp] theorem setIndex_index : (s.setIndex a).index = a := rfl
@[simp] theorem setIndex_pc : (s.setIndex a).pc = s.pc := rfl
@[simp] theorem setIndex_stk : (s.setIndex a).stk = s.stk := rfl
@[simp] theorem setIndex_sp : (s.setIndex a).sp = s.sp := rfl
@[simp] theorem setIndex_dt : (s.setIndex a).dt = s.dt := rfl
@[simp] theorem setIndex_st : (s.setIndex a).st = s.st := rfl
@[simp] theorem setIndex_keyCur : (s.setIndex a).keyCur = s.keyCur := rfl
@[simp] theorem setIndex_keyPrev : (s.setIndex a).keyPrev = s.keyPrev := rfl
@[simp] theorem setIndex_fb : (s.setIndex a).fb = s.fb := rfl
@[simp] theorem setIndex_fbChanged : (s.setIndex a).fbChanged = s.fbChanged := rfl
@[simp] theorem setIndex_snd : (s.setIndex a).snd = s.snd := rfl
@[simp] theorem setIndex_mem : (s.setIndex a).mem = s.mem := rfl
@[simp] theorem setIndex_cfg : (s.setIndex a).cfg = s.cfg := rfl
@[simp] theorem setIndex_rndIn : (s.setIndex a).rndIn = s.rndIn := rfl
@[simp] theorem setIndex_rndCount : (s.setIndex a).rndCount = s.rndCount := rfl
end

section
variable (s : State) (a : Word)
@[simp] theorem setPc_v : (s.setPc a).v = s.v := rfl
@[simp] theorem setPc_index : (s.setPc a).index = s.index := rfl
@[simp] theorem setPc_pc : (s.setPc a).pc = a := rfl
@[simp] theorem setPc_stk : (s.setPc a).stk = s.stk := rfl
@[simp] theorem setPc_sp : (s.setPc a).sp = s.sp := rfl
@[simp] theorem setPc_dt : (s.setPc a).dt = s.dt := rfl
@[simp] theorem setPc_st : (s.setPc a).st = s.st := rfl
@[simp] theorem setPc_keyCur : (s.setPc a).keyCur = s.keyCur := rfl
@[simp] theorem setPc_keyPrev : (s.setPc a).keyPrev = s.keyPrev := rfl
@[simp] theorem setPc_fb : (s.setPc a).fb = s.fb := rfl
@[simp] theorem setPc_fbChanged : (s.setPc a).fbChanged = s.fbChanged := rfl
@[simp] theorem setPc_snd : (s.setPc a).snd = s.snd := rfl
@[simp] theorem setPc_mem : (s.setPc a).mem = s.mem := rfl
@[simp] theorem setPc_cfg : (s.setPc a).cfg = s.cfg := rfl
@[simp] theorem setPc_rndIn : (s.setPc a).rndIn = s.rndIn := rfl
@[simp] theorem setPc_rndCount : (s.setPc a).rndCount = s.rndCount := rfl
end

section
variable (s : State) (a : Vector Word 16) (b : Fin 17)
@[simp] theorem setStack_v : (s.setStack a b).v = s.v := rfl
@[simp] theorem setStack_index : (s.setStack a b).index = s.index := rfl
@[simp] theorem setStack_pc : (s.setStack a b).pc = s.pc := rfl
@[simp] theorem setStack_stk : (s.setStack a b).stk = a := rfl
@[simp] theorem setStack_sp : (s.setStack a b).sp = b := rfl
@[simp] theorem setStack_dt : (s.setStack a b).dt = s.dt := rfl
@[simp] theorem setStack_st : (s.setStack a b).st = s.st := rfl
@[simp] theorem setStack_keyCur : (s.setStack a b).keyCur = s.keyCur := rfl
@[simp] theorem setStack_keyPrev : (s.setStack a b).keyPrev = s.keyPrev := rfl
@[simp] theorem setStack_fb : (s.setStack a b).fb = s.fb := rfl
@[simp] theorem setStack_fbChanged : (s.setStack a b).fbChanged = s.fbChanged := rfl
@[simp] theorem setStack_snd : (s.setStack a b).snd = s.snd := rfl
@[simp] theorem setStack_mem : (s.setStack a b).mem = s.mem := rfl
@[simp] theorem setStack_cfg : (s.setStack a b).cfg = s.cfg := rfl
@[simp] theorem setStack_rndIn : (s.setStack a b).rndIn = s.rndIn := rfl
@[simp] theorem setStack_rndCount : (s.setStack a b).rndCount = s.rndCount := rfl
end

section
variable (s : State) (a : Byte)
@[simp] theorem setDt_v : (s.setDt a).v = s.v := rfl
@[simp] theorem setDt_index : (s.setDt a).index = s.index := rfl
@[simp] theorem setDt_pc : (s.setDt a).pc = s.pc := rfl
@[simp] theorem setDt_stk : (s.setDt a).stk = s.stk := rfl
@[simp] theorem setDt_sp : (s.setDt a).sp = s.sp := rfl
@[simp] theorem setDt_dt : (s.setDt a).dt = a := rfl
@[simp] theorem setDt_st : (s.setDt a).st = s.st := rfl
@[simp] theorem setDt_keyCur : (s.setDt a).keyCur = s.keyCur := rfl
@[simp] theorem setDt_keyPrev : (s.setDt a).keyPrev = s.keyPrev := rfl
@[simp] theorem setDt_fb : (s.setDt a).fb = s.fb := rfl
@[simp] theorem setDt_fbChanged : (s.setDt a).fbChanged = s.fbChanged := rfl
@[simp] theorem setDt_snd : (s.setDt a).snd = s.snd := rfl
@[simp] theorem setDt_mem : (s.setDt a).mem = s.mem := rfl
@[simp] theorem setDt_cfg : (s.setDt a).cfg = s.cfg := rfl
@[simp] theorem setDt_rndIn : (s.setDt a).rndIn = s.rndIn := rfl
@[simp] theorem setDt_rndCount : (s.setDt a).rndCount = s.rndCount := rfl
end

section
variable (s : State) (a : Byte)
@[simp] theorem setSt_v : (s.setSt a).v = s.v := rfl
@[simp] theorem setSt_index : (s.setSt a).index = s.index := rfl
@[simp] theorem setSt_pc : (s.setSt a).pc = s.pc := rfl
@[simp] theorem setSt_stk : (s.setSt a).stk = s.stk := rfl
@[simp] theorem setSt_sp : (s.setSt a).sp = s.sp := rfl
@[simp] theorem setSt_dt : (s.setSt a).dt = s.dt := rfl
@[simp] theorem setSt_st : (s.setSt a).st = a := rfl
@[simp] theorem setSt_keyCur : (s.setSt a).keyCur = s.keyCur := rfl
@[simp] theorem setSt_keyPrev : (s.setSt a).keyPrev = s.keyPrev := rfl
@[simp] theorem setSt_fb : (s.setSt a).fb = s.fb := rfl
@[simp] theorem setSt_fbChanged : (s.setSt a).fbChanged = s.fbChanged := rfl
@[simp] theorem setSt_snd : (s.setSt a).snd = s.snd := rfl
@[simp] theorem setSt_mem : (s.setSt a).mem = s.mem := rfl
@[simp] theorem setSt_cfg : (s.setSt a).cfg = s.cfg := rfl
@[simp] theorem setSt_rndIn : (s.setSt a).rndIn = s.rndIn := rfl
@[simp] theorem setSt_rndCount : (s.setSt a).rndCount = s.rndCount := rfl
end

section
variable (s : State) (a b : Vector Bool 16)
@[simp] theorem setKeys_v : (s.setKeys a b).v = s.v := rfl
@[simp] theorem setKeys_index : (s.setKeys a b).index = s.index := rfl
@[simp] theorem setKeys_pc : (s.setKeys a b).pc = s.pc := rfl
@[simp] theorem setKeys_stk : (s.setKeys a b).stk = s.stk := rfl
@[simp] theorem setKeys_sp : (s.setKeys a b).sp = s.sp := rfl
@[simp] theorem setKeys_dt : (s.setKeys a b).dt = s.dt := rfl
@[simp] theorem setKeys_st : (s.setKeys a b).st = s.st := rfl
@[simp] theorem setKeys_keyCur : (s.setKeys a b).keyCur = a := rfl
@[simp] theorem setKeys_keyPrev : (s.setKeys a b).keyPrev = b := rfl
@[simp] theorem setKeys_fb : (s.setKeys a b).fb = s.fb := rfl
@[simp] theorem setKeys_fbChanged : (s.setKeys a b).fbChanged = s.fbChanged := rfl
@[simp] theorem setKeys_snd : (s.setKeys a b).snd = s.snd := rfl
@[simp] theorem setKeys_mem : (s.setKeys a b).mem = s.mem := rfl
@[simp] theorem setKeys_cfg : (s.setKeys a b).cfg = s.cfg := rfl
@[simp] theorem setKeys_rndIn : (s.setKeys a b).rndIn = s.rndIn := rfl
@[simp] theorem setKeys_rndCount : (s.setKeys a b).rndCount = s.rndCount := rfl
end

section
variable (s : State) (a : Framebuffer)
@[simp] theorem setFb_v : (s.setFb a).v = s.v := rfl
@[simp] theorem setFb_index : (s.setFb a).index = s.index := rfl
@[simp] theorem setFb_pc : (s.setFb a).pc = s.pc := rfl
@[simp] theorem setFb_stk : (s.setFb a).stk = s.stk := rfl
@[simp] theorem setFb_sp : (s.setFb a).sp = s.sp := rfl
@[simp] theorem setFb_dt : (s.setFb a).dt = s.dt := rfl
@[simp] theorem setFb_st : (s.setFb a).st = s.st := rfl
@[simp] theorem setFb_keyCur : (s.setFb a).keyCur = s.keyCur := rfl
@[simp] theorem setFb_keyPrev : (s.setFb a).keyPrev = s.keyPrev := rfl
@[simp] theorem setFb_fb : (s.setFb a).fb = a := rfl
@[simp] theorem setFb_fbChanged : (s.setFb a).fbChanged = s.fbChanged := rfl
@[simp] theorem setFb_snd : (s.setFb a).snd = s.snd := rfl
@[simp] theorem setFb_mem : (s.setFb a).mem = s.mem := rfl
@[simp] theorem setFb_cfg : (s.setFb a).cfg = s.cfg := rfl
@[simp] theorem setFb_rndIn : (s.setFb a).rndIn = s.rndIn := rfl
@[simp] theorem setFb_rndCount : (s.setFb a).rndCount = s.rndCount := rfl
end

section
variable (s : State) (a : Bool)
@[simp] theorem setFbChanged_v : (s.setFbChanged a).v = s.v := rfl
@[simp] theorem setFbChanged_index : (s.setFbChanged a).index = s.index := rfl
@[simp] theorem setFbChanged_pc : (s.setFbChanged a).pc = s.pc := rfl
@[simp] theorem setFbChanged_stk : (s.setFbChanged a).stk = s.stk := rfl
@[simp] theorem setFbChanged_sp : (s.setFbChanged a).sp = s.sp := rfl
@[simp] theorem setFbChanged_dt : (s.setFbChanged a).dt = s.dt := rfl
@[simp] theorem setFbChanged_st : (s.setFbChanged a).st = s.st := rfl
@[simp] theorem setFbChanged_keyCur : (s.setFbChanged a).keyCur = s.keyCur := rfl
@[simp] theorem setFbChanged_keyPrev : (s.setFbChanged a).keyPrev = s.keyPrev := rfl
@[simp] theorem setFbChanged_fb : (s.setFbChanged a).fb = s.fb := rfl
@[simp] theorem setFbChanged_fbChanged : (s.setFbChanged a).fbChanged = a := rfl
@[simp] theorem setFbChanged_snd : (s.setFbChanged a).snd = s.snd := rfl
@[simp] theorem setFbChanged_mem : (s.setFbChanged a).mem = s.mem := rfl
@[simp] theorem setFbChanged_cfg : (s.setFbChanged a).cfg = s.cfg := rfl
@[simp] theorem setFbChanged_rndIn : (s.setFbChanged a).rndIn = s.rndIn := rfl
@[simp] theorem setFbChanged_rndCount : (s.setFbChanged a).rndCount = s.rndCount := rfl
end

section
variable (s : State) (a : Bool)
@[simp] theorem setSnd_v : (s.setSnd a).v = s.v := rfl
@[simp] theorem setSnd_index : (s.setSnd a).index = s.index := rfl
@[simp] theorem setSnd_pc : (s.setSnd a).pc = s.pc := rfl
@[simp] theorem setSnd_stk : (s.setSnd a).stk = s.stk := rfl
@[simp] theorem setSnd_sp : (s.setSnd a).sp = s.sp := rfl
@[simp] theorem setSnd_dt : (s.setSnd a).dt = s.dt := rfl
@[simp] theorem setSnd_st : (s.setSnd a).st = s.st := rfl
@[simp] theorem setSnd_keyCur : (s.setSnd a).keyCur = s.keyCur := rfl
@[simp] theorem setSnd_keyPrev : (s.setSnd a).keyPrev = s.keyPrev := rfl
@[simp] theorem setSnd_fb : (s.setSnd a).fb = s.fb := rfl
@[simp] theorem setSnd_fbChanged : (s.setSnd a).fbChanged = s.fbChanged := rfl
@[simp] theorem setSnd_snd : (s.setSnd a).snd = a := rfl
@[simp] theorem setSnd_mem : (s.setSnd a).mem = s.mem := rfl
@[simp] theorem setSnd_cfg : (s.setSnd a).cfg = s.cfg := rfl
@[simp] theorem setSnd_rndIn : (s.setSnd a).rndIn = s.rndIn := rfl
@[simp] theorem setSnd_rndCount : (s.setSnd a).rndCount = s.rndCount := rfl
end

section
variable (s : State) (a : Memory)
@[simp] theorem setMem_v : (s.setMem a).v = s.v := rfl
@[simp] theorem setMem_index : (s.setMem a).index = s.index := rfl
@[simp] theorem setMem_pc : (s.setMem a).pc = s.pc := rfl
@[simp] theorem setMem_stk : (s.setMem a).stk = s.stk := rfl
@[simp] theorem setMem_sp : (s.setMem a).sp = s.sp := rfl
@[simp] theorem setMem_dt : (s.setMem a).dt = s.dt := rfl
@[simp] theorem setMem_st : (s.setMem a).st = s.st := rfl
@[simp] theorem setMem_keyCur : (s.setMem a).keyCur = s.keyCur := rfl
@[simp] theorem setMem_keyPrev : (s.setMem a).keyPrev = s.keyPrev := rfl
@[simp] theorem setMem_fb : (s.setMem a).fb = s.fb := rfl
@[simp] theorem setMem_fbChanged : (s.setMem a).fbChanged = s.fbChanged := rfl
@[simp] theorem setMem_snd : (s.setMem a).snd = s.snd := rfl
@[simp] theorem setMem_mem : (s.setMem a).mem = a := rfl
@[simp] theorem setMem_cfg : (s.setMem a).cfg = s.cfg := rfl
@[simp] theorem setMem_rndIn : (s.setMem a).rndIn = s.rndIn := rfl
@[simp] theorem setMem_rndCount : (s.setMem a).rndCount = s.rndCount := rfl
end

section
variable (s : State) (a : List Byte) (b : Nat)
@[simp] theorem setRnd_v : (s.setRnd a b).v = s.v := rfl
@[simp] theorem setRnd_index : (s.setRnd a b).index = s.index := rfl
@[simp] theorem setRnd_pc : (s.setRnd a b).pc = s.pc := rfl
@[simp] theorem setRnd_stk : (s.setRnd a b).stk = s.stk := rfl
@[simp] theorem setRnd_sp : (s.setRnd a b).sp = s.sp := rfl
@[simp] theorem setRnd_dt : (s.setRnd a b).dt = s.dt := rfl
@[simp] theorem setRnd_st : (s.setRnd a b).st = s.st := rfl
@[simp] theorem setRnd_keyCur : (s.setRnd a b).keyCur = s.keyCur := rfl
@[simp] theorem setRnd_keyPrev : (s.setRnd a b).keyPrev = s.keyPrev := rfl
@[simp] theorem setRnd_fb : (s.setRnd a b).fb = s.fb := rfl
@[simp] theorem setRnd_fbChanged : (s.setRnd a b).fbChanged = s.fbChanged := rfl
@[simp] theorem setRnd_snd : (s.setRnd a b).snd = s.snd := rfl
@[simp] theorem setRnd_mem : (s.setRnd a b).mem = s.mem := rfl
@[simp] theorem setRnd_cfg : (s.setRnd a b).cfg = s.cfg := rfl
@[simp] theorem setRnd_rndIn : (s.setRnd a b).rndIn = a := rfl
@[simp] theorem setRnd_rndCount : (s.setRnd a b).rndCount = b := rfl
end

end Sys2Proof.Machine.State
end

