-- ==== Sys2Proof/Laws/Accessors.lean ====
section
/-! SUPPORT. The reads of one register, one byte and one cell after each update, and the fields that each shared
operation leaves alone. -/

namespace Sys2Proof.Machine.State

section
variable (s : State) (a : Vector Byte 16)
@[simp] theorem byteAt_setRegs (d : Nat) : (s.setRegs a).byteAt d = s.byteAt d := rfl
@[simp] theorem cell_setRegs (cx : Fin 64) (cy : Fin 32) :
    (s.setRegs a).cell cx cy = s.cell cx cy := rfl
end

section
variable (s : State) (a : Word)
@[simp] theorem reg_setIndex (r : Reg) : (s.setIndex a).reg r = s.reg r := rfl
@[simp] theorem byteAt_setIndex (d : Nat) : (s.setIndex a).byteAt d = s.byteAt d := rfl
@[simp] theorem cell_setIndex (cx : Fin 64) (cy : Fin 32) :
    (s.setIndex a).cell cx cy = s.cell cx cy := rfl
end

section
variable (s : State) (a : Word)
@[simp] theorem reg_setPc (r : Reg) : (s.setPc a).reg r = s.reg r := rfl
@[simp] theorem byteAt_setPc (d : Nat) : (s.setPc a).byteAt d = s.byteAt d := rfl
@[simp] theorem cell_setPc (cx : Fin 64) (cy : Fin 32) :
    (s.setPc a).cell cx cy = s.cell cx cy := rfl
end

section
variable (s : State) (a : Vector Word 16) (b : Fin 17)
@[simp] theorem reg_setStack (r : Reg) : (s.setStack a b).reg r = s.reg r := rfl
@[simp] theorem byteAt_setStack (d : Nat) : (s.setStack a b).byteAt d = s.byteAt d := rfl
@[simp] theorem cell_setStack (cx : Fin 64) (cy : Fin 32) :
    (s.setStack a b).cell cx cy = s.cell cx cy := rfl
end

section
variable (s : State) (a : Byte)
@[simp] theorem reg_setDt (r : Reg) : (s.setDt a).reg r = s.reg r := rfl
@[simp] theorem byteAt_setDt (d : Nat) : (s.setDt a).byteAt d = s.byteAt d := rfl
@[simp] theorem cell_setDt (cx : Fin 64) (cy : Fin 32) :
    (s.setDt a).cell cx cy = s.cell cx cy := rfl
end

section
variable (s : State) (a : Byte)
@[simp] theorem reg_setSt (r : Reg) : (s.setSt a).reg r = s.reg r := rfl
@[simp] theorem byteAt_setSt (d : Nat) : (s.setSt a).byteAt d = s.byteAt d := rfl
@[simp] theorem cell_setSt (cx : Fin 64) (cy : Fin 32) :
    (s.setSt a).cell cx cy = s.cell cx cy := rfl
end

section
variable (s : State) (a b : Vector Bool 16)
@[simp] theorem reg_setKeys (r : Reg) : (s.setKeys a b).reg r = s.reg r := rfl
@[simp] theorem byteAt_setKeys (d : Nat) : (s.setKeys a b).byteAt d = s.byteAt d := rfl
@[simp] theorem cell_setKeys (cx : Fin 64) (cy : Fin 32) :
    (s.setKeys a b).cell cx cy = s.cell cx cy := rfl
end

section
variable (s : State) (a : Framebuffer)
@[simp] theorem reg_setFb (r : Reg) : (s.setFb a).reg r = s.reg r := rfl
@[simp] theorem byteAt_setFb (d : Nat) : (s.setFb a).byteAt d = s.byteAt d := rfl
end

section
variable (s : State) (a : Bool)
@[simp] theorem reg_setFbChanged (r : Reg) : (s.setFbChanged a).reg r = s.reg r := rfl
@[simp] theorem byteAt_setFbChanged (d : Nat) : (s.setFbChanged a).byteAt d = s.byteAt d := rfl
@[simp] theorem cell_setFbChanged (cx : Fin 64) (cy : Fin 32) :
    (s.setFbChanged a).cell cx cy = s.cell cx cy := rfl
end

section
variable (s : State) (a : Bool)
@[simp] theorem reg_setSnd (r : Reg) : (s.setSnd a).reg r = s.reg r := rfl
@[simp] theorem byteAt_setSnd (d : Nat) : (s.setSnd a).byteAt d = s.byteAt d := rfl
@[simp] theorem cell_setSnd (cx : Fin 64) (cy : Fin 32) :
    (s.setSnd a).cell cx cy = s.cell cx cy := rfl
end

section
variable (s : State) (a : Memory)
@[simp] theorem reg_setMem (r : Reg) : (s.setMem a).reg r = s.reg r := rfl
@[simp] theorem cell_setMem (cx : Fin 64) (cy : Fin 32) :
    (s.setMem a).cell cx cy = s.cell cx cy := rfl
end

section
variable (s : State) (a : List Byte) (b : Nat)
@[simp] theorem reg_setRnd (r : Reg) : (s.setRnd a b).reg r = s.reg r := rfl
@[simp] theorem byteAt_setRnd (d : Nat) : (s.setRnd a b).byteAt d = s.byteAt d := rfl
@[simp] theorem cell_setRnd (cx : Fin 64) (cy : Fin 32) :
    (s.setRnd a b).cell cx cy = s.cell cx cy := rfl
end

section
variable (s : State) (x : Reg) (b : Byte)
@[simp] theorem setReg_index : (s.setReg x b).index = s.index := rfl
@[simp] theorem setReg_pc : (s.setReg x b).pc = s.pc := rfl
@[simp] theorem setReg_stk : (s.setReg x b).stk = s.stk := rfl
@[simp] theorem setReg_sp : (s.setReg x b).sp = s.sp := rfl
@[simp] theorem setReg_dt : (s.setReg x b).dt = s.dt := rfl
@[simp] theorem setReg_st : (s.setReg x b).st = s.st := rfl
@[simp] theorem setReg_keyCur : (s.setReg x b).keyCur = s.keyCur := rfl
@[simp] theorem setReg_keyPrev : (s.setReg x b).keyPrev = s.keyPrev := rfl
@[simp] theorem setReg_fb : (s.setReg x b).fb = s.fb := rfl
@[simp] theorem setReg_fbChanged : (s.setReg x b).fbChanged = s.fbChanged := rfl
@[simp] theorem setReg_snd : (s.setReg x b).snd = s.snd := rfl
@[simp] theorem setReg_mem : (s.setReg x b).mem = s.mem := rfl
@[simp] theorem setReg_cfg : (s.setReg x b).cfg = s.cfg := rfl
@[simp] theorem setReg_rndIn : (s.setReg x b).rndIn = s.rndIn := rfl
@[simp] theorem setReg_rndCount : (s.setReg x b).rndCount = s.rndCount := rfl
@[simp] theorem byteAt_setReg (d : Nat) : (s.setReg x b).byteAt d = s.byteAt d := rfl
@[simp] theorem cell_setReg (cx : Fin 64) (cy : Fin 32) :
    (s.setReg x b).cell cx cy = s.cell cx cy := rfl
end

section
variable (s : State) (f : Bool)
@[simp] theorem setFlag_index : (s.setFlag f).index = s.index := rfl
@[simp] theorem setFlag_pc : (s.setFlag f).pc = s.pc := rfl
@[simp] theorem setFlag_stk : (s.setFlag f).stk = s.stk := rfl
@[simp] theorem setFlag_sp : (s.setFlag f).sp = s.sp := rfl
@[simp] theorem setFlag_dt : (s.setFlag f).dt = s.dt := rfl
@[simp] theorem setFlag_st : (s.setFlag f).st = s.st := rfl
@[simp] theorem setFlag_keyCur : (s.setFlag f).keyCur = s.keyCur := rfl
@[simp] theorem setFlag_keyPrev : (s.setFlag f).keyPrev = s.keyPrev := rfl
@[simp] theorem setFlag_fb : (s.setFlag f).fb = s.fb := rfl
@[simp] theorem setFlag_fbChanged : (s.setFlag f).fbChanged = s.fbChanged := rfl
@[simp] theorem setFlag_snd : (s.setFlag f).snd = s.snd := rfl
@[simp] theorem setFlag_mem : (s.setFlag f).mem = s.mem := rfl
@[simp] theorem setFlag_cfg : (s.setFlag f).cfg = s.cfg := rfl
@[simp] theorem setFlag_rndIn : (s.setFlag f).rndIn = s.rndIn := rfl
@[simp] theorem setFlag_rndCount : (s.setFlag f).rndCount = s.rndCount := rfl
@[simp] theorem byteAt_setFlag (d : Nat) : (s.setFlag f).byteAt d = s.byteAt d := rfl
@[simp] theorem cell_setFlag (cx : Fin 64) (cy : Fin 32) :
    (s.setFlag f).cell cx cy = s.cell cx cy := rfl
end

section
variable (s : State) (bs : List Byte)
@[simp] theorem loadRegs_index : (s.loadRegs bs).index = s.index := setRegs_index ..
@[simp] theorem loadRegs_pc : (s.loadRegs bs).pc = s.pc := setRegs_pc ..
@[simp] theorem loadRegs_stk : (s.loadRegs bs).stk = s.stk := setRegs_stk ..
@[simp] theorem loadRegs_sp : (s.loadRegs bs).sp = s.sp := setRegs_sp ..
@[simp] theorem loadRegs_dt : (s.loadRegs bs).dt = s.dt := setRegs_dt ..
@[simp] theorem loadRegs_st : (s.loadRegs bs).st = s.st := setRegs_st ..
@[simp] theorem loadRegs_keyCur : (s.loadRegs bs).keyCur = s.keyCur := setRegs_keyCur ..
@[simp] theorem loadRegs_keyPrev : (s.loadRegs bs).keyPrev = s.keyPrev := setRegs_keyPrev ..
@[simp] theorem loadRegs_fb : (s.loadRegs bs).fb = s.fb := setRegs_fb ..
@[simp] theorem loadRegs_fbChanged : (s.loadRegs bs).fbChanged = s.fbChanged := setRegs_fbChanged ..
@[simp] theorem loadRegs_snd : (s.loadRegs bs).snd = s.snd := setRegs_snd ..
@[simp] theorem loadRegs_mem : (s.loadRegs bs).mem = s.mem := setRegs_mem ..
@[simp] theorem loadRegs_cfg : (s.loadRegs bs).cfg = s.cfg := setRegs_cfg ..
@[simp] theorem loadRegs_rndIn : (s.loadRegs bs).rndIn = s.rndIn := setRegs_rndIn ..
@[simp] theorem loadRegs_rndCount : (s.loadRegs bs).rndCount = s.rndCount := setRegs_rndCount ..
@[simp] theorem byteAt_loadRegs (d : Nat) : (s.loadRegs bs).byteAt d = s.byteAt d := byteAt_setRegs ..
@[simp] theorem cell_loadRegs (cx : Fin 64) (cy : Fin 32) :
    (s.loadRegs bs).cell cx cy = s.cell cx cy := cell_setRegs ..
end

section
variable (s : State) 
@[simp] theorem advance_v : s.advance.v = s.v := rfl
@[simp] theorem advance_index : s.advance.index = s.index := rfl
@[simp] theorem advance_stk : s.advance.stk = s.stk := rfl
@[simp] theorem advance_sp : s.advance.sp = s.sp := rfl
@[simp] theorem advance_dt : s.advance.dt = s.dt := rfl
@[simp] theorem advance_st : s.advance.st = s.st := rfl
@[simp] theorem advance_keyCur : s.advance.keyCur = s.keyCur := rfl
@[simp] theorem advance_keyPrev : s.advance.keyPrev = s.keyPrev := rfl
@[simp] theorem advance_fb : s.advance.fb = s.fb := rfl
@[simp] theorem advance_fbChanged : s.advance.fbChanged = s.fbChanged := rfl
@[simp] theorem advance_snd : s.advance.snd = s.snd := rfl
@[simp] theorem advance_mem : s.advance.mem = s.mem := rfl
@[simp] theorem advance_cfg : s.advance.cfg = s.cfg := rfl
@[simp] theorem advance_rndIn : s.advance.rndIn = s.rndIn := rfl
@[simp] theorem advance_rndCount : s.advance.rndCount = s.rndCount := rfl
@[simp] theorem reg_advance (r : Reg) : s.advance.reg r = s.reg r := rfl
@[simp] theorem byteAt_advance (d : Nat) : s.advance.byteAt d = s.byteAt d := rfl
@[simp] theorem cell_advance (cx : Fin 64) (cy : Fin 32) :
    s.advance.cell cx cy = s.cell cx cy := rfl
end

section
variable (s : State) (c : Bool)
@[simp] theorem skipIf_v : (s.skipIf c).v = s.v := rfl
@[simp] theorem skipIf_index : (s.skipIf c).index = s.index := rfl
@[simp] theorem skipIf_stk : (s.skipIf c).stk = s.stk := rfl
@[simp] theorem skipIf_sp : (s.skipIf c).sp = s.sp := rfl
@[simp] theorem skipIf_dt : (s.skipIf c).dt = s.dt := rfl
@[simp] theorem skipIf_st : (s.skipIf c).st = s.st := rfl
@[simp] theorem skipIf_keyCur : (s.skipIf c).keyCur = s.keyCur := rfl
@[simp] theorem skipIf_keyPrev : (s.skipIf c).keyPrev = s.keyPrev := rfl
@[simp] theorem skipIf_fb : (s.skipIf c).fb = s.fb := rfl
@[simp] theorem skipIf_fbChanged : (s.skipIf c).fbChanged = s.fbChanged := rfl
@[simp] theorem skipIf_snd : (s.skipIf c).snd = s.snd := rfl
@[simp] theorem skipIf_mem : (s.skipIf c).mem = s.mem := rfl
@[simp] theorem skipIf_cfg : (s.skipIf c).cfg = s.cfg := rfl
@[simp] theorem skipIf_rndIn : (s.skipIf c).rndIn = s.rndIn := rfl
@[simp] theorem skipIf_rndCount : (s.skipIf c).rndCount = s.rndCount := rfl
@[simp] theorem reg_skipIf (r : Reg) : (s.skipIf c).reg r = s.reg r := rfl
@[simp] theorem byteAt_skipIf (d : Nat) : (s.skipIf c).byteAt d = s.byteAt d := rfl
@[simp] theorem cell_skipIf (cx : Fin 64) (cy : Fin 32) :
    (s.skipIf c).cell cx cy = s.cell cx cy := rfl
end

section
variable (s : State) (a : Nat) (bs : List Byte)
@[simp] theorem pokeBytes_v : (s.pokeBytes a bs).v = s.v := rfl
@[simp] theorem pokeBytes_index : (s.pokeBytes a bs).index = s.index := rfl
@[simp] theorem pokeBytes_pc : (s.pokeBytes a bs).pc = s.pc := rfl
@[simp] theorem pokeBytes_stk : (s.pokeBytes a bs).stk = s.stk := rfl
@[simp] theorem pokeBytes_sp : (s.pokeBytes a bs).sp = s.sp := rfl
@[simp] theorem pokeBytes_dt : (s.pokeBytes a bs).dt = s.dt := rfl
@[simp] theorem pokeBytes_st : (s.pokeBytes a bs).st = s.st := rfl
@[simp] theorem pokeBytes_keyCur : (s.pokeBytes a bs).keyCur = s.keyCur := rfl
@[simp] theorem pokeBytes_keyPrev : (s.pokeBytes a bs).keyPrev = s.keyPrev := rfl
@[simp] theorem pokeBytes_fb : (s.pokeBytes a bs).fb = s.fb := rfl
@[simp] theorem pokeBytes_fbChanged : (s.pokeBytes a bs).fbChanged = s.fbChanged := rfl
@[simp] theorem pokeBytes_snd : (s.pokeBytes a bs).snd = s.snd := rfl
@[simp] theorem pokeBytes_cfg : (s.pokeBytes a bs).cfg = s.cfg := rfl
@[simp] theorem pokeBytes_rndIn : (s.pokeBytes a bs).rndIn = s.rndIn := rfl
@[simp] theorem pokeBytes_rndCount : (s.pokeBytes a bs).rndCount = s.rndCount := rfl
@[simp] theorem reg_pokeBytes (r : Reg) : (s.pokeBytes a bs).reg r = s.reg r := rfl
@[simp] theorem cell_pokeBytes (cx : Fin 64) (cy : Fin 32) :
    (s.pokeBytes a bs).cell cx cy = s.cell cx cy := rfl
end

section
variable (s : State) (x : Reg) (b : Byte) (f : Bool)
@[simp] theorem setRegThenFlag_index : (s.setRegThenFlag x b f).index = s.index := rfl
@[simp] theorem setRegThenFlag_pc : (s.setRegThenFlag x b f).pc = s.pc := rfl
@[simp] theorem setRegThenFlag_stk : (s.setRegThenFlag x b f).stk = s.stk := rfl
@[simp] theorem setRegThenFlag_sp : (s.setRegThenFlag x b f).sp = s.sp := rfl
@[simp] theorem setRegThenFlag_dt : (s.setRegThenFlag x b f).dt = s.dt := rfl
@[simp] theorem setRegThenFlag_st : (s.setRegThenFlag x b f).st = s.st := rfl
@[simp] theorem setRegThenFlag_keyCur : (s.setRegThenFlag x b f).keyCur = s.keyCur := rfl
@[simp] theorem setRegThenFlag_keyPrev : (s.setRegThenFlag x b f).keyPrev = s.keyPrev := rfl
@[simp] theorem setRegThenFlag_fb : (s.setRegThenFlag x b f).fb = s.fb := rfl
@[simp] theorem setRegThenFlag_fbChanged : (s.setRegThenFlag x b f).fbChanged = s.fbChanged := rfl
@[simp] theorem setRegThenFlag_snd : (s.setRegThenFlag x b f).snd = s.snd := rfl
@[simp] theorem setRegThenFlag_mem : (s.setRegThenFlag x b f).mem = s.mem := rfl
@[simp] theorem setRegThenFlag_cfg : (s.setRegThenFlag x b f).cfg = s.cfg := rfl
@[simp] theorem setRegThenFlag_rndIn : (s.setRegThenFlag x b f).rndIn = s.rndIn := rfl
@[simp] theorem setRegThenFlag_rndCount : (s.setRegThenFlag x b f).rndCount = s.rndCount := rfl
@[simp] theorem byteAt_setRegThenFlag (d : Nat) : (s.setRegThenFlag x b f).byteAt d = s.byteAt d := rfl
@[simp] theorem cell_setRegThenFlag (cx : Fin 64) (cy : Fin 32) :
    (s.setRegThenFlag x b f).cell cx cy = s.cell cx cy := rfl
end

@[simp] theorem advance_pc (s : State) : s.advance.pc = s.pc + 2 := rfl
@[simp] theorem skipIf_pc (s : State) (c : Bool) : (s.skipIf c).pc = if c then s.pc + 4 else s.pc + 2 := rfl

section
variable (s : State)
@[simp] theorem consumeRnd_v : s.consumeRnd.v = s.v := by unfold consumeRnd; split <;> rfl
@[simp] theorem consumeRnd_index : s.consumeRnd.index = s.index := by unfold consumeRnd; split <;> rfl
@[simp] theorem consumeRnd_pc : s.consumeRnd.pc = s.pc := by unfold consumeRnd; split <;> rfl
@[simp] theorem consumeRnd_stk : s.consumeRnd.stk = s.stk := by unfold consumeRnd; split <;> rfl
@[simp] theorem consumeRnd_sp : s.consumeRnd.sp = s.sp := by unfold consumeRnd; split <;> rfl
@[simp] theorem consumeRnd_dt : s.consumeRnd.dt = s.dt := by unfold consumeRnd; split <;> rfl
@[simp] theorem consumeRnd_st : s.consumeRnd.st = s.st := by unfold consumeRnd; split <;> rfl
@[simp] theorem consumeRnd_keyCur : s.consumeRnd.keyCur = s.keyCur := by unfold consumeRnd; split <;> rfl
@[simp] theorem consumeRnd_keyPrev : s.consumeRnd.keyPrev = s.keyPrev := by unfold consumeRnd; split <;> rfl
@[simp] theorem consumeRnd_fb : s.consumeRnd.fb = s.fb := by unfold consumeRnd; split <;> rfl
@[simp] theorem consumeRnd_fbChanged : s.consumeRnd.fbChanged = s.fbChanged := by unfold consumeRnd; split <;> rfl
@[simp] theorem consumeRnd_snd : s.consumeRnd.snd = s.snd := by unfold consumeRnd; split <;> rfl
@[simp] theorem consumeRnd_mem : s.consumeRnd.mem = s.mem := by unfold consumeRnd; split <;> rfl
@[simp] theorem consumeRnd_cfg : s.consumeRnd.cfg = s.cfg := by unfold consumeRnd; split <;> rfl
@[simp] theorem reg_consumeRnd (r : Reg) : s.consumeRnd.reg r = s.reg r := by unfold consumeRnd; split <;> rfl
@[simp] theorem byteAt_consumeRnd (d : Nat) : s.consumeRnd.byteAt d = s.byteAt d := by unfold consumeRnd; split <;> rfl
@[simp] theorem cell_consumeRnd (cx : Fin 64) (cy : Fin 32) : s.consumeRnd.cell cx cy = s.cell cx cy := by
  unfold consumeRnd; split <;> rfl
end

/-- A register write reads back, and every other register keeps its value. -/
@[simp] theorem reg_setReg (s : State) (x r : Reg) (b : Byte) :
    (s.setReg x b).reg r = if r = x then b else s.reg r := by
  simp only [reg, setReg, setRegs_v, Fin.getElem_fin, Vector.getElem_set]
  split <;> split <;> simp_all [Fin.ext_iff]

/-- The flag is written to `VF` alone (R21). -/
@[simp] theorem reg_setFlag (s : State) (f : Bool) (r : Reg) :
    (s.setFlag f).reg r = if r = flagReg then (if f then 1 else 0) else s.reg r := by
  simp only [setFlag, reg_setReg]

/-- The flag wins when the destination is `VF` (R153). -/
@[simp] theorem reg_setRegThenFlag (s : State) (x : Reg) (b : Byte) (f : Bool) (r : Reg) :
    (s.setRegThenFlag x b f).reg r =
      if r = flagReg then (if f then 1 else 0) else if r = x then b else s.reg r := by
  simp only [setRegThenFlag, reg_setFlag, reg_setReg]

/-- A register load writes the registers that its bytes reach. -/
@[simp] theorem reg_loadRegs (s : State) (bs : List Byte) (r : Reg) :
    (s.loadRegs bs).reg r = bs.getD r.val (s.reg r) := by
  simp [reg, loadRegs, loadedRegs]

/-- `regsUpTo` has `x + 1` bytes. -/
@[simp] theorem length_regsUpTo (s : State) (x : Reg) : (s.regsUpTo x).length = x.val + 1 := by
  have := x.isLt
  simp only [regsUpTo, List.length_take, Vector.length_toList]
  omega

/-- Byte `k` of `regsUpTo` is `V[k]`. -/
theorem getElem_regsUpTo (s : State) (x : Reg) (k : Nat) (h : k < (s.regsUpTo x).length) :
    (s.regsUpTo x)[k] = s.reg ⟨k, by simp at h; omega⟩ := by
  simp [regsUpTo, reg]

/-- A checked store leaves every byte outside its range alone. -/
theorem byteAt_pokeBytes_outside (s : State) (a : Nat) (bs : List Byte) (d : Nat)
    (h : ¬(a ≤ d ∧ d < a + bs.length)) : (s.pokeBytes a bs).byteAt d = s.byteAt d :=
  Memory.read_putBytes_outside h

/-- A stored byte reads back. -/
theorem byteAt_pokeBytes_inside (s : State) (a : Nat) (bs : List Byte)
    (hm : Memory.wf s.cfg.font s.mem = true) (ha : a + bs.length ≤ 4096) (k : Nat) (hk : k < bs.length) :
    (s.pokeBytes a bs).byteAt (a + k) = bs[k] :=
  Memory.read_putBytes_inside ha hm hk

end Sys2Proof.Machine.State
end

