-- ==== Sys2Proof/Laws/Ops.lean ====
section
/-! SUPPORT. For each shared operation, everything it can answer, said once. -/

namespace Sys2Proof.Machine

/-! ### Errors -/

@[simp] theorem orRaise_ok {α : Type} (a : α) (k : α → Result) : orRaise (.ok a) k = k a := rfl
@[simp] theorem orRaise_error {α : Type} (f : Fault) (k : α → Result) : orRaise (.error f) k = .fault f := rfl

theorem orRaise_next_iff {α : Type} {r : Except Fault α} {k : α → Result} {t : State} :
    orRaise r k = .next t ↔ ∃ a, r = .ok a ∧ k a = .next t := by
  cases r <;> simp [orRaise, raise]

theorem orRaise_fault_iff {α : Type} {r : Except Fault α} {k : α → Result} {f : Fault} :
    orRaise r k = .fault f ↔ r = .error f ∨ ∃ a, r = .ok a ∧ k a = .fault f := by
  cases r <;> simp [orRaise, raise]

theorem orRaise_refused_iff {α : Type} {r : Except Fault α} {k : α → Result} {e : Refusal} :
    orRaise r k = .refused e ↔ ∃ a, r = .ok a ∧ k a = .refused e := by
  cases r <;> simp [orRaise, raise]

/-! ### Memory accesses (R55, R56) -/

theorem memRead_ok_iff {a n : Nat} {s : State} {bs : List Byte} :
    memRead a n s = .ok bs ↔
      (n = 0 ∨ a + n - 1 ≤ 4095) ∧ bs = (List.range n).map fun k => s.byteAt (a + k) := by
  unfold memRead
  split
  · next h => subst h; simp [eq_comm]
  · split
    · simp; omega
    · simp only [Except.ok.injEq]; constructor
      · rintro rfl; exact ⟨by omega, rfl⟩
      · rintro ⟨-, rfl⟩; rfl

theorem memRead_error_iff {a n : Nat} {s : State} {f : Fault} :
    memRead a n s = .error f ↔ f = .addressOutOfRange ∧ 1 ≤ n ∧ 4095 < a + n - 1 := by
  unfold memRead
  split
  · simp; omega
  · split
    · simp only [Except.error.injEq]; constructor
      · rintro rfl; exact ⟨rfl, by omega, by omega⟩
      · rintro ⟨rfl, -⟩; rfl
    · simp; omega

theorem memWrite_ok_iff {a : Nat} {bs : List Byte} {s t : State} :
    memWrite a bs s = .ok t ↔ a + bs.length - 1 ≤ 4095 ∧ 0x200 ≤ a ∧ t = s.pokeBytes a bs := by
  unfold memWrite
  split
  · simp; omega
  · split
    · simp; omega
    · simp only [Except.ok.injEq]; constructor
      · rintro rfl; exact ⟨by omega, by omega, rfl⟩
      · rintro ⟨-, -, rfl⟩; rfl

theorem memWrite_error_iff {a : Nat} {bs : List Byte} {s : State} {f : Fault} :
    memWrite a bs s = .error f ↔
      (f = .addressOutOfRange ∧ 4095 < a + bs.length - 1) ∨
      (f = .writeProtected ∧ a + bs.length - 1 ≤ 4095 ∧ a < 0x200) := by
  unfold memWrite
  split
  · cases f <;> simp <;> omega
  · split
    · cases f <;> simp <;> omega
    · cases f <;> simp <;> omega

/-! ### Fetch (R101) -/

theorem fetch_ok_iff {s : State} {op : Word} :
    fetch s = .ok op ↔ s.pc.toNat ≤ 4094 ∧ s.pc.toNat % 2 = 0 ∧ op = s.wordAt s.pc.toNat := by
  unfold fetch
  split
  · simp; omega
  · split
    · simp; omega
    · simp only [Except.ok.injEq]; constructor
      · rintro rfl; exact ⟨by omega, by omega, rfl⟩
      · rintro ⟨-, -, rfl⟩; rfl

theorem fetch_error_iff {s : State} {f : Fault} :
    fetch s = .error f ↔
      (f = .fetchOutOfRange ∧ 4094 < s.pc.toNat) ∨
      (f = .fetchMisaligned ∧ s.pc.toNat ≤ 4094 ∧ s.pc.toNat % 2 = 1) := by
  unfold fetch
  split
  · cases f <;> simp <;> omega
  · split
    · cases f <;> simp <;> omega
    · cases f <;> simp <;> omega

/-! ### Call stack (R120, R122) -/

theorem pushStack_ok_iff {w : Word} {s t : State} :
    pushStack w s = .ok t ↔
      ∃ h : s.sp.val < 16,
        t = s.setStack (s.stk.set s.sp.val w) ⟨s.sp.val + 1, Nat.succ_lt_succ h⟩ := by
  unfold pushStack
  split
  · next h => simp only [Except.ok.injEq, h, exists_true_left, eq_comm]
  · next h => simp [h]

theorem pushStack_error_iff {w : Word} {s : State} {f : Fault} :
    pushStack w s = .error f ↔ f = .stackOverflow ∧ s.sp.val = 16 := by
  have := s.sp.isLt
  unfold pushStack
  split <;> cases f <;> simp <;> omega

theorem popStack_ok_iff {s : State} {r : Word × State} :
    popStack s = .ok r ↔
      ∃ (_ : 0 < s.sp.val) (h : s.sp.val - 1 < 16),
        r = (s.stk[s.sp.val - 1], s.setStack s.stk ⟨s.sp.val - 1, Nat.lt_succ_of_lt h⟩) := by
  have := s.sp.isLt
  unfold popStack
  split
  · next h =>
    simp only [Except.ok.injEq, h, exists_true_left, eq_comm]
    exact ⟨fun e => ⟨by omega, e⟩, fun ⟨_, e⟩ => e⟩
  · next h => simp [h]

theorem popStack_error_iff {s : State} {f : Fault} :
    popStack s = .error f ↔ f = .stackUnderflow ∧ s.sp.val = 0 := by
  unfold popStack
  split <;> cases f <;> simp <;> omega

/-! ### Keypad (R186) -/

theorem keyDown_ok_iff {k : Byte} {s : State} {b : Bool} :
    keyDown k s = .ok b ↔ ∃ h : k.toNat < 16, b = s.keyCur[k.toNat] := by
  unfold keyDown
  split
  · next h => simp only [Except.ok.injEq, h, exists_true_left, eq_comm]
  · next h => simp [h]

theorem keyDown_error_iff {k : Byte} {s : State} {f : Fault} :
    keyDown k s = .error f ↔ f = .keyIndexOutOfRange ∧ 15 < k.toNat := by
  unfold keyDown
  split <;> cases f <;> simp <;> omega

/-! ### Random input (R108) -/

theorem consumeRnd_injected {s : State} {b : Byte} {bs : List Byte} (h : s.rndIn = b :: bs) :
    s.rnd = b ∧ s.consumeRnd = s.setRnd bs s.rndCount := by
  simp [State.rnd, State.consumeRnd, h]

theorem consumeRnd_free {s : State} (h : s.rndIn = []) :
    s.rnd = Config.freeRnd s.rndCount ∧ s.consumeRnd = s.setRnd [] (s.rndCount + 1) := by
  simp [State.rnd, State.consumeRnd, h]

/-! ### Byte order and operands -/

@[simp] theorem bcdDigits_length (v : Byte) : (bcdDigits v).length = 3 := rfl

/-- The high byte counts 256 (R52). -/
theorem wordOfBytes_toNat (hi lo : Byte) : (wordOfBytes hi lo).toNat = 256 * hi.toNat + lo.toNat := by
  have h1 := hi.isLt
  have h2 := lo.isLt
  rw [wordOfBytes, BitVec.toNat_append, ← Nat.shiftLeft_add_eq_or_of_lt h2, Nat.shiftLeft_eq]
  omega

theorem wordOfBytes_split (op : Word) : wordOfBytes (highByte op) (lowByte op) = op := by
  refine BitVec.eq_of_getLsbD_eq fun k hk => ?_
  simp only [wordOfBytes, highByte, lowByte, BitVec.getLsbD_append, BitVec.getLsbD_extractLsb']
  split
  · next h => simp [h]
  · simp [show k - 8 < 8 by omega, show 8 + (k - 8) = k by omega]

end Sys2Proof.Machine
end

