-- ==== Sys2Proof/Laws/Framebuffer.lean ====
section
/-! SUPPORT. What plotting does to one cell and to the collision mark (R171). -/

namespace Sys2Proof.Machine

/-- A toggle flips its own cell and leaves every other one alone. -/
theorem toggleCell_get (fb : Framebuffer) (cx x : Fin 64) (cy y : Fin 32) :
    (toggleCell fb cx cy)[y][x] = (fb[y][x] ^^ decide (y = cy ∧ x = cx)) := by
  simp only [toggleCell, Fin.getElem_fin, Vector.getElem_set]
  by_cases hy : y = cy
  · subst hy
    by_cases hx : x = cx
    · subst hx; simp
    · have : (cx : Nat) ≠ x := fun h => hx (Fin.ext h.symm)
      simp [hx, this]
  · have : (cy : Nat) ≠ y := fun h => hy (Fin.ext h.symm)
    simp [hy, this]

/-- The eight columns of a sprite row lie on eight cells. -/
theorem wrapX_inj {n c d : Nat} (hc : c < 8) (hd : d < 8) (h : wrapX (n + c) = wrapX (n + d)) : c = d := by
  simp only [wrapX, Fin.mk.injEq] at h
  omega

/-- The rows of a sprite lie on as many rows of cells. -/
theorem wrapY_inj {n c d : Nat} (hc : c < 16) (hd : d < 16) (h : wrapY (n + c) = wrapY (n + d)) : c = d := by
  simp only [wrapY, Fin.mk.injEq] at h
  omega

/-- Columns `c` to `c + left - 1` of a sprite row at `vx` set a bit on column `x` of the screen. -/
abbrev RowCovers (vx : Nat) (row : Byte) (left c : Nat) (x : Fin 64) : Prop :=
  ∃ j < 8, c ≤ j ∧ j < c + left ∧ spriteBit row j = true ∧ x = wrapX (vx + j)

theorem rowCovers_succ_of_set {vx : Nat} {row : Byte} {left c : Nat} {x : Fin 64} (hc : c < 8)
    (hb : spriteBit row c = true) :
    RowCovers vx row (left + 1) c x ↔ x = wrapX (vx + c) ∨ RowCovers vx row left (c + 1) x := by
  constructor
  · rintro ⟨j, hj, h1, h2, h3, h4⟩
    by_cases e : j = c
    · exact .inl (e ▸ h4)
    · exact .inr ⟨j, hj, by omega, by omega, h3, h4⟩
  · rintro (h | ⟨j, hj, h1, h2, h3, h4⟩)
    · exact ⟨c, hc, by omega, by omega, hb, h⟩
    · exact ⟨j, hj, by omega, by omega, h3, h4⟩

theorem rowCovers_succ_of_clear {vx : Nat} {row : Byte} {left c : Nat} {x : Fin 64}
    (hb : ¬spriteBit row c = true) : RowCovers vx row (left + 1) c x ↔ RowCovers vx row left (c + 1) x := by
  constructor
  · rintro ⟨j, hj, h1, h2, h3, h4⟩
    have : j ≠ c := by rintro rfl; exact hb h3
    exact ⟨j, hj, by omega, by omega, h3, h4⟩
  · rintro ⟨j, hj, h1, h2, h3, h4⟩; exact ⟨j, hj, by omega, by omega, h3, h4⟩

/-- The later columns of a row do not come back to an earlier one. -/
theorem not_rowCovers_earlier {vx : Nat} {row : Byte} {left c : Nat} (hc : c < 8) :
    ¬RowCovers vx row left (c + 1) (wrapX (vx + c)) := by
  rintro ⟨j, hj, h1, -, -, h2⟩
  have := wrapX_inj hc hj h2
  omega

/-- No two columns of a row lie on one cell, so a cell flips iff a set bit lies on it. -/
theorem plotRow_cell (vx : Nat) (cy : Fin 32) (row : Byte) (left c : Nat) (k : Canvas) (h : c + left ≤ 8)
    (x : Fin 64) (y : Fin 32) :
    (plotRow vx cy row left c k).fb[y][x] =
      (k.fb[y][x] ^^ decide (y = cy ∧ RowCovers vx row left c x)) := by
  induction left generalizing c k with
  | zero =>
    have : ¬RowCovers vx row 0 c x := by rintro ⟨j, -, h1, h2, -⟩; omega
    simp [plotRow, this]
  | succ left ih =>
    rw [plotRow, ih (c + 1) _ (by omega)]
    by_cases hb : spriteBit row c = true
    · have hc := not_rowCovers_earlier (vx := vx) (row := row) (left := left) (c := c) (by omega)
      simp only [hb, if_true, plot, toggleCell_get, Bool.xor_assoc]
      congr 1
      simp only [rowCovers_succ_of_set (by omega : c < 8) hb]
      by_cases hy : y = cy <;> by_cases hx : x = wrapX (vx + c) <;> simp [hy, hx, hc]
    · simp only [hb, Bool.false_eq_true, if_false]
      simp only [rowCovers_succ_of_clear hb]

/-- The collision mark after some columns of a row: set before, or a set bit lies on a cell that was 1. -/
theorem plotRow_hit (vx : Nat) (cy : Fin 32) (row : Byte) (left c : Nat) (k : Canvas) (h : c + left ≤ 8) :
    (plotRow vx cy row left c k).hit = true ↔
      k.hit = true ∨ ∃ j < 8, c ≤ j ∧ j < c + left ∧ spriteBit row j = true ∧ k.fb[cy][wrapX (vx + j)] = true := by
  induction left generalizing c k with
  | zero =>
    simp only [plotRow]
    constructor
    · exact .inl
    · rintro (h | ⟨j, -, h1, h2, -⟩)
      · exact h
      · omega
  | succ left ih =>
    rw [plotRow, ih (c + 1) _ (by omega)]
    by_cases hb : spriteBit row c = true
    · simp only [hb, if_true, plot, Bool.or_eq_true, toggleCell_get]
      constructor
      · rintro ((h1 | h1) | ⟨j, hj, h1, h2, h3, h4⟩)
        · exact .inl h1
        · exact .inr ⟨c, by omega, by omega, by omega, hb, h1⟩
        · have : ¬wrapX (vx + j) = wrapX (vx + c) := fun e => by
            have := wrapX_inj hj (by omega) e; omega
          exact .inr ⟨j, hj, by omega, by omega, h3, by simpa [this] using h4⟩
      · rintro (h1 | ⟨j, hj, h1, h2, h3, h4⟩)
        · exact .inl (.inl h1)
        · by_cases e : j = c
          · exact .inl (.inr (e ▸ h4))
          · have : ¬wrapX (vx + j) = wrapX (vx + c) := fun e' => e (wrapX_inj hj (by omega) e')
            exact .inr ⟨j, hj, by omega, by omega, h3, by simpa [this] using h4⟩
    · simp only [hb]
      simp only [Bool.false_eq_true, if_false]
      constructor
      · rintro (h1 | ⟨j, hj, h1, h2, h3⟩)
        · exact .inl h1
        · exact .inr ⟨j, hj, by omega, by omega, h3⟩
      · rintro (h1 | ⟨j, hj, h1, h2, h3, h4⟩)
        · exact .inl h1
        · have : j ≠ c := by rintro rfl; exact hb h3
          exact .inr ⟨j, hj, by omega, by omega, h3, h4⟩

/-- A sprite at (`vx`, `vy`), its rows numbered from `r`, sets a bit on the cell `(x, y)`. -/
abbrev RowsCover (vx vy : Nat) (rows : List Byte) (r : Nat) (x : Fin 64) (y : Fin 32) : Prop :=
  ∃ j < rows.length, y = wrapY (vy + (r + j)) ∧ RowCovers vx (rows.getD j 0) 8 0 x

theorem rowsCover_cons {vx vy : Nat} {row : Byte} {rows : List Byte} {r : Nat} {x : Fin 64} {y : Fin 32} :
    RowsCover vx vy (row :: rows) r x y ↔
      (y = wrapY (vy + r) ∧ RowCovers vx row 8 0 x) ∨ RowsCover vx vy rows (r + 1) x y := by
  constructor
  · rintro ⟨j, hj, h1, h2⟩
    cases j with
    | zero => exact .inl ⟨h1, h2⟩
    | succ j => exact .inr ⟨j, by simpa using hj, by rw [h1]; congr 2; omega, h2⟩
  · rintro (⟨h1, h2⟩ | ⟨j, hj, h1, h2⟩)
    · exact ⟨0, by simp, h1, h2⟩
    · exact ⟨j + 1, by simpa using hj, by rw [h1]; congr 2; omega, h2⟩

/-- The later rows of a sprite do not come back to an earlier one. -/
theorem not_rowsCover_earlier {vx vy : Nat} {rows : List Byte} {r : Nat} {x : Fin 64} (h : r + 1 + rows.length ≤ 16) :
    ¬RowsCover vx vy rows (r + 1) x (wrapY (vy + r)) := by
  rintro ⟨j, hj, h1, -⟩
  have := wrapY_inj (by omega) (by omega) h1
  omega

/-- No cell is visited twice in one draw (R173), so a cell flips iff the sprite sets a bit on it. -/
theorem plotRows_cell (vx vy : Nat) (rows : List Byte) (r : Nat) (k : Canvas) (h : r + rows.length ≤ 16)
    (x : Fin 64) (y : Fin 32) :
    (plotRows vx vy rows r k).fb[y][x] = (k.fb[y][x] ^^ decide (RowsCover vx vy rows r x y)) := by
  induction rows generalizing r k with
  | nil => simp [plotRows, RowsCover]
  | cons row rows ih =>
    simp only [List.length_cons] at h
    have hne := not_rowsCover_earlier (vx := vx) (vy := vy) (rows := rows) (r := r) (x := x) (by omega)
    rw [plotRows, ih (r + 1) _ (by omega), plotRow_cell _ _ _ _ _ _ (by omega), Bool.xor_assoc]
    simp only [rowsCover_cons]
    by_cases hy : y = wrapY (vy + r)
    · subst hy; simp [hne]
    · simp [hy]

/-- A draw reports a collision iff the sprite sets a bit on a cell that was 1 before it (R171). -/
theorem plotRows_hit (vx vy : Nat) (rows : List Byte) (r : Nat) (k : Canvas) (h : r + rows.length ≤ 16) :
    (plotRows vx vy rows r k).hit = true ↔
      k.hit = true ∨ ∃ x y, RowsCover vx vy rows r x y ∧ k.fb[y][x] = true := by
  induction rows generalizing r k with
  | nil => simp [plotRows, RowsCover]
  | cons row rows ih =>
    simp only [List.length_cons] at h
    rw [plotRows, ih (r + 1) _ (by omega), plotRow_hit _ _ _ _ _ _ (by omega)]
    simp only [rowsCover_cons, plotRow_cell _ _ _ _ _ _ (by omega : 0 + 8 ≤ 8)]
    constructor
    · rintro ((h1 | ⟨j, hj, h1, h2, h3, h4⟩) | ⟨x, y, h1, h2⟩)
      · exact .inl h1
      · exact .inr ⟨_, _, .inl ⟨rfl, ⟨j, hj, h1, h2, h3, rfl⟩⟩, h4⟩
      · have hy : y ≠ wrapY (vy + r) := by rintro rfl; exact not_rowsCover_earlier (by omega) h1
        exact .inr ⟨x, y, .inr h1, by simpa [hy] using h2⟩
    · rintro (h1 | ⟨x, y, ⟨rfl, j, hj, h1, h2, h3, rfl⟩ | h1, h4⟩)
      · exact .inl (.inl h1)
      · exact .inl (.inr ⟨j, hj, h1, h2, h3, h4⟩)
      · have hy : y ≠ wrapY (vy + r) := by rintro rfl; exact not_rowsCover_earlier (by omega) h1
        exact .inr ⟨x, y, h1, by simpa [hy] using h4⟩

end Sys2Proof.Machine
end

