-- ==== Sys2Proof/Laws/PerInstr.lean ====
section
/-! SUPPORT. Two statements made for every instruction, constructor by constructor: its operands pass the check of R89,
and its word lies in its own row of the opcode table (R84). -/

namespace Sys2Proof.Laws

theorem reg_ok (x : Reg) : x.val < OperandKind.register.bound := x.isLt
theorem nibble_ok (n : Nibble) : n.toNat < OperandKind.nibble.bound := n.isLt
theorem byte_ok (b : Byte) : b.toNat < OperandKind.byte.bound := b.isLt
theorem addr_ok (a : Addr) : a.toNat < OperandKind.address.bound := a.isLt

theorem nibble_and_all (c : Nibble) : c &&& 0xF#4 = c := by decide +revert

theorem byte_and_all (b : Byte) : b &&& 0xFF#8 = b := BitVec.and_allOnes

/-- The mask of format `NNN` keeps the class. -/
theorem packNNN_masked (c : Nibble) (nnn : Addr) : packNNN c nnn &&& 0xF000#16 = packNNN c 0#12 := by
  rw [show (0xF000#16 : Word) = (0xF#4 ++ 0#12 : BitVec 16) by decide, packNNN, BitVec.and_append, nibble_and_all,
    BitVec.and_zero, packNNN]

/-- The mask of format `XNN` keeps the class. -/
theorem packXNN_masked (c : Nibble) (x : Reg) (nn : Byte) : packXNN c x nn &&& 0xF000#16 = packXNN c 0 0#8 := by
  rw [show (0xF000#16 : Word) = ((0xF#4 ++ 0#4 : BitVec 8) ++ 0#8 : BitVec 16) by decide, packXNN, BitVec.and_append,
    BitVec.and_append, nibble_and_all, BitVec.and_zero, BitVec.and_zero, packXNN]
  rfl

/-- The mask of format `X` keeps the class and the sub-opcode `nn`. -/
theorem packX_masked (c : Nibble) (x : Reg) (nn : Byte) : packXNN c x nn &&& 0xF0FF#16 = packXNN c 0 nn := by
  rw [show (0xF0FF#16 : Word) = ((0xF#4 ++ 0#4 : BitVec 8) ++ 0xFF#8 : BitVec 16) by decide, packXNN, BitVec.and_append,
    BitVec.and_append, nibble_and_all, BitVec.and_zero, byte_and_all, packXNN]
  rfl

/-- The mask of format `XY` keeps the class and the sub-opcode `n`. -/
theorem packXY_masked (c : Nibble) (x y : Reg) (n : Nibble) : packXYN c x y n &&& 0xF00F#16 = packXYN c 0 0 n := by
  rw [show (0xF00F#16 : Word) = ((0xF#4 ++ 0#4 : BitVec 8) ++ (0#4 ++ 0xF#4 : BitVec 8) : BitVec 16) by decide, packXYN,
    BitVec.and_append, BitVec.and_append, BitVec.and_append, nibble_and_all, nibble_and_all, BitVec.and_zero,
    BitVec.and_zero, packXYN]
  rfl

/-- The mask of format `XYN` keeps the class. -/
theorem packXYN_masked (c : Nibble) (x y : Reg) (n : Nibble) : packXYN c x y n &&& 0xF000#16 = packXYN c 0 0 0#4 := by
  rw [show (0xF000#16 : Word) = ((0xF#4 ++ 0#4 : BitVec 8) ++ (0#4 ++ 0#4 : BitVec 8) : BitVec 16) by decide, packXYN,
    BitVec.and_append, BitVec.and_append, BitVec.and_append, nibble_and_all, BitVec.and_zero, BitVec.and_zero,
    BitVec.and_zero, packXYN]
  rfl

/-- R89: the operands of every instruction pass the operand check. -/
def WellFormed.Statement (i : Instr) : Prop := i.wellFormed = true

/-- R84: the word of every instruction matches its row, `op & mask = match`. -/
def TablePattern.Statement (i : Instr) : Prop := encode i &&& i.pattern.1 = i.pattern.2

theorem WellFormed.clearScreen : WellFormed.Statement (.clearScreen) := by
  simp [WellFormed.Statement, Instr.wellFormed, Instr.operands, operandsOk]

theorem WellFormed.ret : WellFormed.Statement (.ret) := by
  simp [WellFormed.Statement, Instr.wellFormed, Instr.operands, operandsOk]

theorem WellFormed.jump (nnn : Addr) : WellFormed.Statement (.jump nnn) := by
  simp [WellFormed.Statement, Instr.wellFormed, Instr.operands, operandsOk, addr_ok nnn]

theorem WellFormed.call (nnn : Addr) : WellFormed.Statement (.call nnn) := by
  simp [WellFormed.Statement, Instr.wellFormed, Instr.operands, operandsOk, addr_ok nnn]

theorem WellFormed.skipEqImm (x : Reg) (nn : Byte) : WellFormed.Statement (.skipEqImm x nn) := by
  simp [WellFormed.Statement, Instr.wellFormed, Instr.operands, operandsOk, reg_ok x, byte_ok nn]

theorem WellFormed.skipNeqImm (x : Reg) (nn : Byte) : WellFormed.Statement (.skipNeqImm x nn) := by
  simp [WellFormed.Statement, Instr.wellFormed, Instr.operands, operandsOk, reg_ok x, byte_ok nn]

theorem WellFormed.skipEqReg (x : Reg) (y : Reg) : WellFormed.Statement (.skipEqReg x y) := by
  simp [WellFormed.Statement, Instr.wellFormed, Instr.operands, operandsOk, reg_ok x, reg_ok y]

theorem WellFormed.skipNeqReg (x : Reg) (y : Reg) : WellFormed.Statement (.skipNeqReg x y) := by
  simp [WellFormed.Statement, Instr.wellFormed, Instr.operands, operandsOk, reg_ok x, reg_ok y]

theorem WellFormed.setImm (x : Reg) (nn : Byte) : WellFormed.Statement (.setImm x nn) := by
  simp [WellFormed.Statement, Instr.wellFormed, Instr.operands, operandsOk, reg_ok x, byte_ok nn]

theorem WellFormed.addImm (x : Reg) (nn : Byte) : WellFormed.Statement (.addImm x nn) := by
  simp [WellFormed.Statement, Instr.wellFormed, Instr.operands, operandsOk, reg_ok x, byte_ok nn]

theorem WellFormed.setReg (x : Reg) (y : Reg) : WellFormed.Statement (.setReg x y) := by
  simp [WellFormed.Statement, Instr.wellFormed, Instr.operands, operandsOk, reg_ok x, reg_ok y]

theorem WellFormed.orReg (x : Reg) (y : Reg) : WellFormed.Statement (.orReg x y) := by
  simp [WellFormed.Statement, Instr.wellFormed, Instr.operands, operandsOk, reg_ok x, reg_ok y]

theorem WellFormed.andReg (x : Reg) (y : Reg) : WellFormed.Statement (.andReg x y) := by
  simp [WellFormed.Statement, Instr.wellFormed, Instr.operands, operandsOk, reg_ok x, reg_ok y]

theorem WellFormed.xorReg (x : Reg) (y : Reg) : WellFormed.Statement (.xorReg x y) := by
  simp [WellFormed.Statement, Instr.wellFormed, Instr.operands, operandsOk, reg_ok x, reg_ok y]

theorem WellFormed.addReg (x : Reg) (y : Reg) : WellFormed.Statement (.addReg x y) := by
  simp [WellFormed.Statement, Instr.wellFormed, Instr.operands, operandsOk, reg_ok x, reg_ok y]

theorem WellFormed.subReg (x : Reg) (y : Reg) : WellFormed.Statement (.subReg x y) := by
  simp [WellFormed.Statement, Instr.wellFormed, Instr.operands, operandsOk, reg_ok x, reg_ok y]

theorem WellFormed.shiftRight (x : Reg) (y : Reg) : WellFormed.Statement (.shiftRight x y) := by
  simp [WellFormed.Statement, Instr.wellFormed, Instr.operands, operandsOk, reg_ok x, reg_ok y]

theorem WellFormed.subnReg (x : Reg) (y : Reg) : WellFormed.Statement (.subnReg x y) := by
  simp [WellFormed.Statement, Instr.wellFormed, Instr.operands, operandsOk, reg_ok x, reg_ok y]

theorem WellFormed.shiftLeft (x : Reg) (y : Reg) : WellFormed.Statement (.shiftLeft x y) := by
  simp [WellFormed.Statement, Instr.wellFormed, Instr.operands, operandsOk, reg_ok x, reg_ok y]

theorem WellFormed.setIndex (nnn : Addr) : WellFormed.Statement (.setIndex nnn) := by
  simp [WellFormed.Statement, Instr.wellFormed, Instr.operands, operandsOk, addr_ok nnn]

theorem WellFormed.jumpOffset (nnn : Addr) : WellFormed.Statement (.jumpOffset nnn) := by
  simp [WellFormed.Statement, Instr.wellFormed, Instr.operands, operandsOk, addr_ok nnn]

theorem WellFormed.randMask (x : Reg) (nn : Byte) : WellFormed.Statement (.randMask x nn) := by
  simp [WellFormed.Statement, Instr.wellFormed, Instr.operands, operandsOk, reg_ok x, byte_ok nn]

theorem WellFormed.draw (x : Reg) (y : Reg) (n : Nibble) : WellFormed.Statement (.draw x y n) := by
  simp [WellFormed.Statement, Instr.wellFormed, Instr.operands, operandsOk, reg_ok x, reg_ok y, nibble_ok n]

theorem WellFormed.skipKeyDown (x : Reg) : WellFormed.Statement (.skipKeyDown x) := by
  simp [WellFormed.Statement, Instr.wellFormed, Instr.operands, operandsOk, reg_ok x]

theorem WellFormed.skipKeyUp (x : Reg) : WellFormed.Statement (.skipKeyUp x) := by
  simp [WellFormed.Statement, Instr.wellFormed, Instr.operands, operandsOk, reg_ok x]

theorem WellFormed.loadDelay (x : Reg) : WellFormed.Statement (.loadDelay x) := by
  simp [WellFormed.Statement, Instr.wellFormed, Instr.operands, operandsOk, reg_ok x]

theorem WellFormed.waitKey (x : Reg) : WellFormed.Statement (.waitKey x) := by
  simp [WellFormed.Statement, Instr.wellFormed, Instr.operands, operandsOk, reg_ok x]

theorem WellFormed.setDelay (x : Reg) : WellFormed.Statement (.setDelay x) := by
  simp [WellFormed.Statement, Instr.wellFormed, Instr.operands, operandsOk, reg_ok x]

theorem WellFormed.setSound (x : Reg) : WellFormed.Statement (.setSound x) := by
  simp [WellFormed.Statement, Instr.wellFormed, Instr.operands, operandsOk, reg_ok x]

theorem WellFormed.addIndex (x : Reg) : WellFormed.Statement (.addIndex x) := by
  simp [WellFormed.Statement, Instr.wellFormed, Instr.operands, operandsOk, reg_ok x]

theorem WellFormed.fontAddress (x : Reg) : WellFormed.Statement (.fontAddress x) := by
  simp [WellFormed.Statement, Instr.wellFormed, Instr.operands, operandsOk, reg_ok x]

theorem WellFormed.storeBcd (x : Reg) : WellFormed.Statement (.storeBcd x) := by
  simp [WellFormed.Statement, Instr.wellFormed, Instr.operands, operandsOk, reg_ok x]

theorem WellFormed.registerDump (x : Reg) : WellFormed.Statement (.registerDump x) := by
  simp [WellFormed.Statement, Instr.wellFormed, Instr.operands, operandsOk, reg_ok x]

theorem WellFormed.registerLoad (x : Reg) : WellFormed.Statement (.registerLoad x) := by
  simp [WellFormed.Statement, Instr.wellFormed, Instr.operands, operandsOk, reg_ok x]

theorem TablePattern.clearScreen : TablePattern.Statement (.clearScreen) :=
  by unfold TablePattern.Statement; decide

theorem TablePattern.ret : TablePattern.Statement (.ret) :=
  by unfold TablePattern.Statement; decide

theorem TablePattern.jump (nnn : Addr) : TablePattern.Statement (.jump nnn) :=
  (packNNN_masked _ nnn).trans rfl

theorem TablePattern.call (nnn : Addr) : TablePattern.Statement (.call nnn) :=
  (packNNN_masked _ nnn).trans rfl

theorem TablePattern.skipEqImm (x : Reg) (nn : Byte) : TablePattern.Statement (.skipEqImm x nn) :=
  (packXNN_masked _ x nn).trans rfl

theorem TablePattern.skipNeqImm (x : Reg) (nn : Byte) : TablePattern.Statement (.skipNeqImm x nn) :=
  (packXNN_masked _ x nn).trans rfl

theorem TablePattern.skipEqReg (x : Reg) (y : Reg) : TablePattern.Statement (.skipEqReg x y) :=
  (packXY_masked _ x y _).trans rfl

theorem TablePattern.skipNeqReg (x : Reg) (y : Reg) : TablePattern.Statement (.skipNeqReg x y) :=
  (packXY_masked _ x y _).trans rfl

theorem TablePattern.setImm (x : Reg) (nn : Byte) : TablePattern.Statement (.setImm x nn) :=
  (packXNN_masked _ x nn).trans rfl

theorem TablePattern.addImm (x : Reg) (nn : Byte) : TablePattern.Statement (.addImm x nn) :=
  (packXNN_masked _ x nn).trans rfl

theorem TablePattern.setReg (x : Reg) (y : Reg) : TablePattern.Statement (.setReg x y) :=
  (packXY_masked _ x y _).trans rfl

theorem TablePattern.orReg (x : Reg) (y : Reg) : TablePattern.Statement (.orReg x y) :=
  (packXY_masked _ x y _).trans rfl

theorem TablePattern.andReg (x : Reg) (y : Reg) : TablePattern.Statement (.andReg x y) :=
  (packXY_masked _ x y _).trans rfl

theorem TablePattern.xorReg (x : Reg) (y : Reg) : TablePattern.Statement (.xorReg x y) :=
  (packXY_masked _ x y _).trans rfl

theorem TablePattern.addReg (x : Reg) (y : Reg) : TablePattern.Statement (.addReg x y) :=
  (packXY_masked _ x y _).trans rfl

theorem TablePattern.subReg (x : Reg) (y : Reg) : TablePattern.Statement (.subReg x y) :=
  (packXY_masked _ x y _).trans rfl

theorem TablePattern.shiftRight (x : Reg) (y : Reg) : TablePattern.Statement (.shiftRight x y) :=
  (packXY_masked _ x y _).trans rfl

theorem TablePattern.subnReg (x : Reg) (y : Reg) : TablePattern.Statement (.subnReg x y) :=
  (packXY_masked _ x y _).trans rfl

theorem TablePattern.shiftLeft (x : Reg) (y : Reg) : TablePattern.Statement (.shiftLeft x y) :=
  (packXY_masked _ x y _).trans rfl

theorem TablePattern.setIndex (nnn : Addr) : TablePattern.Statement (.setIndex nnn) :=
  (packNNN_masked _ nnn).trans rfl

theorem TablePattern.jumpOffset (nnn : Addr) : TablePattern.Statement (.jumpOffset nnn) :=
  (packNNN_masked _ nnn).trans rfl

theorem TablePattern.randMask (x : Reg) (nn : Byte) : TablePattern.Statement (.randMask x nn) :=
  (packXNN_masked _ x nn).trans rfl

theorem TablePattern.draw (x : Reg) (y : Reg) (n : Nibble) : TablePattern.Statement (.draw x y n) :=
  (packXYN_masked _ x y n).trans rfl

theorem TablePattern.skipKeyDown (x : Reg) : TablePattern.Statement (.skipKeyDown x) :=
  (packX_masked _ x _).trans rfl

theorem TablePattern.skipKeyUp (x : Reg) : TablePattern.Statement (.skipKeyUp x) :=
  (packX_masked _ x _).trans rfl

theorem TablePattern.loadDelay (x : Reg) : TablePattern.Statement (.loadDelay x) :=
  (packX_masked _ x _).trans rfl

theorem TablePattern.waitKey (x : Reg) : TablePattern.Statement (.waitKey x) :=
  (packX_masked _ x _).trans rfl

theorem TablePattern.setDelay (x : Reg) : TablePattern.Statement (.setDelay x) :=
  (packX_masked _ x _).trans rfl

theorem TablePattern.setSound (x : Reg) : TablePattern.Statement (.setSound x) :=
  (packX_masked _ x _).trans rfl

theorem TablePattern.addIndex (x : Reg) : TablePattern.Statement (.addIndex x) :=
  (packX_masked _ x _).trans rfl

theorem TablePattern.fontAddress (x : Reg) : TablePattern.Statement (.fontAddress x) :=
  (packX_masked _ x _).trans rfl

theorem TablePattern.storeBcd (x : Reg) : TablePattern.Statement (.storeBcd x) :=
  (packX_masked _ x _).trans rfl

theorem TablePattern.registerDump (x : Reg) : TablePattern.Statement (.registerDump x) :=
  (packX_masked _ x _).trans rfl

theorem TablePattern.registerLoad (x : Reg) : TablePattern.Statement (.registerLoad x) :=
  (packX_masked _ x _).trans rfl

end Sys2Proof.Laws
end

