-- ==== Sys2Proof/Laws/Step.lean ====
section
/-! SUPPORT. Everything a step can do, said once. -/

namespace Sys2Proof.Machine

/-- No word of two bytes is too short. -/
theorem decodeWord_error {op : Word} {e : Reject} (h : decodeWord op = .error e) : e = .unknownOpcode := by
  unfold decodeWord at h
  split at h <;>
    first
      | cases h
      | (unfold decodeClass0 at h; split at h <;> [cases h; (split at h <;> cases h; rfl)])
      | (unfold decodeWhenZero at h; split at h <;> cases h; rfl)
      | (unfold decodeClass8 at h; split at h <;> cases h; rfl)
      | (unfold decodeClassE at h; split at h <;> cases h; rfl)
      | (unfold decodeClassF at h; split at h <;> cases h; rfl)

/-- A step that goes on has fetched a word at an even `pc` of at most 4094, and either that word is an instruction and
its meaning went on, or it is unrecognized and `pc` has advanced by 2. -/
theorem step_next_cases {s t : State} (h : step s = .next t) :
    (s.pc.toNat ≤ 4094 ∧ s.pc.toNat % 2 = 0) ∧
      ((∃ i, decodeWord (s.wordAt s.pc.toNat) = .ok i ∧ exec i s = .next t) ∨
        (decodeWord (s.wordAt s.pc.toNat) = .error .unknownOpcode ∧ t = s.advance)) := by
  unfold step at h
  split at h
  · cases h
  · next op hop =>
    obtain ⟨h1, h2, rfl⟩ := fetch_ok_iff.1 hop
    refine ⟨⟨h1, h2⟩, ?_⟩
    split at h
    · next i hi => exact .inl ⟨i, hi, h⟩
    · next e he => cases decodeWord_error he; cases h; exact .inr ⟨he, rfl⟩

/-- A step that faults has failed to fetch, or the meaning of its instruction faulted. -/
theorem step_fault_cases {s : State} {f : Fault} (h : step s = .fault f) :
    fetch s = .error f ∨
      (s.pc.toNat ≤ 4094 ∧ s.pc.toNat % 2 = 0) ∧
        ∃ i, decodeWord (s.wordAt s.pc.toNat) = .ok i ∧ exec i s = .fault f := by
  unfold step at h
  split at h
  · next e he => cases h; exact .inl he
  · next op hop =>
    obtain ⟨h1, h2, rfl⟩ := fetch_ok_iff.1 hop
    split at h
    · next i hi => exact .inr ⟨⟨h1, h2⟩, i, hi, h⟩
    · cases h

end Sys2Proof.Machine
end

