-- ==== Sys2Proof/Tests/Slice0.lean ====
section
/-! SUPPORT. Tests and witnesses. Expected values come from the spec: the words from the patterns of R84, the steps from
the vectors of spec/95_test_vectors.md, whose names (AV-10, DV-D3, ...) stand in the comments. -/

-- One kernel evaluation at a time: side by side, the threads of a hundred would not fit the memory limit.
set_option Elab.async false

namespace Sys2Proof.Tests

open Sys2Proof.Machine

/-- The reset state with one instruction word at 0x200. -/
def loaded (op : Nat) : State := State.reset.withFetchWord 16 op

/-- `V[r] <- b` for each pair. -/
def State.withRegs (s : State) (l : List (Reg × Byte)) : State := l.foldl (fun t p => t.setReg p.1 p.2) s

/-- The values of these cells `(cx, cy)`. -/
def cellsAt (s : State) (l : List (Fin 64 × Fin 32)) : List Bool := l.map fun p => s.cell p.1 p.2

/-- A key vector with these keys down. -/
def keys (down : List Nat) : Vector Bool 16 := Vector.ofFn fun k => decide (k.val ∈ down)

/-! ### The operand check refuses (R83, R89) -/

theorem test_operandsOk_refuses_register_16 : operandsOk [.register, .byte] [16, 0] = false := by decide +kernel
theorem test_operandsOk_refuses_second_register_16 : operandsOk [.register, .register] [0, 16] = false :=
  by decide +kernel
theorem test_operandsOk_refuses_nibble_16 :
    operandsOk [.register, .register, .nibble] [0, 0, 16] = false := by decide +kernel
theorem test_operandsOk_refuses_byte_256 : operandsOk [.register, .byte] [0, 256] = false := by decide +kernel
theorem test_operandsOk_refuses_address_4096 : operandsOk [.address] [4096] = false := by decide +kernel
theorem test_operandsOk_refuses_missing_operand : operandsOk [.register, .byte] [0] = false := by decide +kernel
theorem test_operandsOk_refuses_extra_operand : operandsOk [.address] [0, 0] = false := by decide +kernel
theorem test_operandsOk_takes_the_largest_operands :
    operandsOk [.register, .register, .nibble] [15, 15, 15] = true ∧ operandsOk [.register, .byte] [15, 255] = true ∧
      operandsOk [.address] [4095] = true ∧ operandsOk [] [] = true := by decide +kernel

/-! ### Decoding: each word bit by bit from its pattern (R81, R84), with x = 10, y = 11 where it has them -/

theorem test_decode_flow :
    decodeWord 0b0000000011101110#16 = .ok .ret ∧
    decodeWord 0b0001101010111100#16 = .ok (.jump 0xABC) ∧
    decodeWord 0b0010000100100011#16 = .ok (.call 0x123) ∧
    decodeWord 0b1011111111111110#16 = .ok (.jumpOffset 0xFFE) := by decide +kernel
theorem test_decode_skips :
    decodeWord 0b0011101001000010#16 = .ok (.skipEqImm 10 0x42) ∧
    decodeWord 0b0100101001000010#16 = .ok (.skipNeqImm 10 0x42) ∧
    decodeWord 0b0101101010110000#16 = .ok (.skipEqReg 10 11) ∧
    decodeWord 0b1001101010110000#16 = .ok (.skipNeqReg 10 11) := by decide +kernel
theorem test_decode_immediates :
    decodeWord 0b0110000000001010#16 = .ok (.setImm 0 10) ∧
    decodeWord 0b0111101000000001#16 = .ok (.addImm 10 1) ∧
    decodeWord 0b1100001100001111#16 = .ok (.randMask 3 15) := by decide +kernel
theorem test_decode_register_pairs :
    decodeWord 0b1000101010110000#16 = .ok (.setReg 10 11) ∧
    decodeWord 0b1000101010110001#16 = .ok (.orReg 10 11) ∧
    decodeWord 0b1000101010110010#16 = .ok (.andReg 10 11) ∧
    decodeWord 0b1000101010110011#16 = .ok (.xorReg 10 11) := by decide +kernel
theorem test_decode_arithmetic :
    decodeWord 0b1000000000010100#16 = .ok (.addReg 0 1) ∧
    decodeWord 0b1000101010110101#16 = .ok (.subReg 10 11) ∧
    decodeWord 0b1000101010110110#16 = .ok (.shiftRight 10 11) ∧
    decodeWord 0b1000101010110111#16 = .ok (.subnReg 10 11) ∧
    decodeWord 0b1000101010111110#16 = .ok (.shiftLeft 10 11) := by decide +kernel
theorem test_decode_index_memory :
    decodeWord 0b1010001100000000#16 = .ok (.setIndex 0x300) ∧
    decodeWord 0b1111001000011110#16 = .ok (.addIndex 2) ∧
    decodeWord 0b1111010100101001#16 = .ok (.fontAddress 5) ∧
    decodeWord 0b1111111000110011#16 = .ok (.storeBcd 14) ∧
    decodeWord 0b1111000101010101#16 = .ok (.registerDump 1) ∧
    decodeWord 0b1111001001100101#16 = .ok (.registerLoad 2) := by decide +kernel
theorem test_decode_display :
    decodeWord 0b0000000011100000#16 = .ok .clearScreen ∧
    decodeWord 0b1101000100100101#16 = .ok (.draw 1 2 5) := by decide +kernel
theorem test_decode_keypad_timers :
    decodeWord 0b1110010110011110#16 = .ok (.skipKeyDown 5) ∧
    decodeWord 0b1110010110100001#16 = .ok (.skipKeyUp 5) ∧
    decodeWord 0b1111011000001010#16 = .ok (.waitKey 6) ∧
    decodeWord 0b1111001100000111#16 = .ok (.loadDelay 3) ∧
    decodeWord 0b1111001100010101#16 = .ok (.setDelay 3) ∧
    decodeWord 0b1111010000011000#16 = .ok (.setSound 4) := by decide +kernel

/-- XV-1 to XV-12: a word of each class of R86, and the neighbours of the sub-opcodes. -/
theorem test_decode_unrecognized :
    [0x0000#16, 0x00E1#16, 0x00EF#16, 0x0123#16, 0x5121#16, 0x9AB1#16, 0x8018#16, 0x801F#16, 0xE09F#16, 0xE0A0#16,
      0xF000#16, 0xF0FF#16].map decodeWord = List.replicate 12 (.error .unknownOpcode) := by decide +kernel

theorem test_decodeBytes_needs_two_bytes :
    decodeBytes [0x60] = .error .truncated ∧ decodeBytes [] = .error .truncated := by decide +kernel

/-- The table's numbering, and the first instruction after reset. -/
theorem test_decodeTableWord : decodeTableWord 16 0x8014 = some (.addReg 0 1) ∧ decodeTableWord 16 0x5121 = none :=
  by decide +kernel
theorem test_withFetchWord_runs_the_word : step (loaded 0x1ABC) = exec (.jump 0xABC) (loaded 0x1ABC) := by rfl

/-! ### Fetch and unrecognized words -/

/-- XV-1. -/
theorem test_unknown_opcode :
    (afterStep State.reset).pc = 0x202 ∧ stepResult State.reset = ⟨.unknownOpcode, false⟩ := by decide +kernel
/-- XV-13, XV-14, XV-15, XV-16. -/
theorem test_fetch_errors :
    stepResult (State.reset.setPc 0x201) = ⟨.fatal .fetchMisaligned, false⟩ ∧
    stepResult (State.reset.setPc 0xFFF) = ⟨.fatal .fetchOutOfRange, false⟩ ∧
    stepResult (State.reset.setPc 0x1000) = ⟨.fatal .fetchOutOfRange, false⟩ ∧
    stepResult (State.reset.setPc 0x10FE) = ⟨.fatal .fetchOutOfRange, false⟩ := by decide +kernel
/-- XV-17. -/
theorem test_last_word_runs :
    (afterStep ((State.reset.setPc 0xFFE).withFetchWord 16 0x6001)).pc = 0x1000 ∧
    (afterStep ((State.reset.setPc 0xFFE).withFetchWord 16 0x6001)).reg 0 = 1 := by decide +kernel

/-! ### Flow -/

/-- FV-1. -/
theorem test_jump : (afterStep (loaded 0x1ABC)).pc = 0xABC := by decide +kernel
/-- FV-4. -/
theorem test_call :
    (afterStep ((State.reset.setPc 0x246).withFetchWord 16 0x2300)).pc = 0x300 ∧
    (afterStep ((State.reset.setPc 0x246).withFetchWord 16 0x2300)).sp = 1 ∧
    (afterStep ((State.reset.setPc 0x246).withFetchWord 16 0x2300)).stk[0] = 0x246 := by decide +kernel
/-- FV-7. -/
theorem test_call_overflow :
    stepResult ((loaded 0x2300).setStack (Vector.replicate 16 0x200) 16) = ⟨.fatal .stackOverflow, false⟩ :=
  by decide +kernel
/-- A state three calls deep, as FV-8's. -/
def threeDeep : State :=
  ((State.reset.setPc 0x300).setStack
    (((Vector.replicate 16 0).set 0 0x200).set 1 0x210 |>.set 2 0x2FE) 3).withFetchWord 16 0x00EE
/-- FV-8. -/
theorem test_return :
    (afterStep threeDeep).pc = 0x300 ∧ (afterStep threeDeep).sp = 2 ∧ (afterStep threeDeep).stk[2] = 0x2FE :=
  by decide +kernel
/-- FV-6. -/
theorem test_return_underflow : stepResult (loaded 0x00EE) = ⟨.fatal .stackUnderflow, false⟩ := by decide +kernel
/-- FV-10, FV-11. -/
theorem test_jump_offset :
    (afterStep (State.withRegs (loaded 0xB124) [(0, 2), (1, 0x40)])).pc = 0x126 ∧
    (afterStep (State.withRegs (loaded 0xBFFF) [(0, 0xFF)])).pc = 0x10FE := by decide +kernel

/-! ### Skips -/

/-- KV-1, KV-2. -/
theorem test_skip_eq_imm :
    (afterStep (State.withRegs (loaded 0x3A42) [(10, 0x42)])).pc = 0x204 ∧
    (afterStep (State.withRegs (loaded 0x3A42) [(10, 0x43)])).pc = 0x202 := by decide +kernel
/-- KV-3, KV-4. -/
theorem test_skip_neq_imm :
    (afterStep (State.withRegs (loaded 0x4A42) [(10, 0x42)])).pc = 0x202 ∧
    (afterStep (State.withRegs (loaded 0x4A42) [(10, 0x43)])).pc = 0x204 := by decide +kernel
/-- KV-5, KV-6. -/
theorem test_skip_eq_reg :
    (afterStep (State.withRegs (loaded 0x5120) [(1, 7), (2, 7)])).pc = 0x204 ∧
    (afterStep (State.withRegs (loaded 0x5120) [(1, 7), (2, 8)])).pc = 0x202 := by decide +kernel
/-- KV-7, KV-8. -/
theorem test_skip_neq_reg :
    (afterStep (State.withRegs (loaded 0x9120) [(1, 7), (2, 7)])).pc = 0x202 ∧
    (afterStep (State.withRegs (loaded 0x9120) [(1, 7), (2, 8)])).pc = 0x204 := by decide +kernel

/-! ### Register and ALU -/

/-- AV-1. -/
theorem test_set_imm : (afterStep (loaded 0x6FAB)).reg 15 = 0xAB ∧ (afterStep (loaded 0x6FAB)).pc = 0x202 :=
  by decide +kernel
/-- AV-2. -/
theorem test_add_imm :
    (afterStep (State.withRegs (loaded 0x70FF) [(0, 2), (15, 7)])).reg 0 = 1 ∧
    (afterStep (State.withRegs (loaded 0x70FF) [(0, 2), (15, 7)])).reg 15 = 7 := by decide +kernel
/-- AV-5. -/
theorem test_set_reg : (afterStep (State.withRegs (loaded 0x8010) [(0, 1), (1, 0x99)])).reg 0 = 0x99 :=
  by decide +kernel
/-- AV-6. -/
theorem test_or :
    (afterStep (State.withRegs (loaded 0x8011) [(0, 0xF0), (1, 0x0F), (15, 7)])).reg 0 = 0xFF ∧
    (afterStep (State.withRegs (loaded 0x8011) [(0, 0xF0), (1, 0x0F), (15, 7)])).reg 15 = 7 := by decide +kernel
/-- AV-7. -/
theorem test_and : (afterStep (State.withRegs (loaded 0x8012) [(0, 0xF0), (1, 0x3C)])).reg 0 = 0x30 := by decide +kernel
/-- AV-8. -/
theorem test_xor : (afterStep (State.withRegs (loaded 0x8013) [(0, 0xF0), (1, 0x3C)])).reg 0 = 0xCC := by decide +kernel
/-- AV-10, AV-12. -/
theorem test_add_reg :
    (afterStep (State.withRegs (loaded 0x8014) [(0, 0xFF), (1, 1)])).reg 0 = 0 ∧
    (afterStep (State.withRegs (loaded 0x8014) [(0, 0xFF), (1, 1)])).reg 15 = 1 ∧
    (afterStep (State.withRegs (loaded 0x8014) [(0, 0x80), (1, 0x7F)])).reg 15 = 0 := by decide +kernel
/-- AV-15, AV-17: the flag register as destination, and as source. -/
theorem test_add_reg_flag_register :
    (afterStep (State.withRegs (loaded 0x8F14) [(15, 3), (1, 4)])).reg 15 = 0 ∧
    (afterStep (State.withRegs (loaded 0x80F4) [(0, 1), (15, 1)])).reg 0 = 2 := by decide +kernel
/-- AV-18, AV-19. -/
theorem test_sub_reg :
    (afterStep (State.withRegs (loaded 0x8015) [(0, 5), (1, 5)])).reg 15 = 1 ∧
    (afterStep (State.withRegs (loaded 0x8015) [(0, 0), (1, 1)])).reg 0 = 0xFF ∧
    (afterStep (State.withRegs (loaded 0x8015) [(0, 0), (1, 1)])).reg 15 = 0 := by decide +kernel
/-- AV-29: `y` is ignored. -/
theorem test_shift_right :
    (afterStep (State.withRegs (loaded 0x8016) [(0, 1), (1, 0xFF)])).reg 0 = 0 ∧
    (afterStep (State.withRegs (loaded 0x8016) [(0, 1), (1, 0xFF)])).reg 15 = 1 ∧
    (afterStep (State.withRegs (loaded 0x8016) [(0, 1), (1, 0xFF)])).reg 1 = 0xFF := by decide +kernel
/-- AV-26, AV-25. -/
theorem test_subn_reg :
    (afterStep (State.withRegs (loaded 0x8017) [(0, 3), (1, 10)])).reg 0 = 7 ∧
    (afterStep (State.withRegs (loaded 0x8017) [(0, 3), (1, 10)])).reg 15 = 1 ∧
    (afterStep (State.withRegs (loaded 0x8017) [(0, 1), (1, 0)])).reg 15 = 0 := by decide +kernel
/-- AV-36, AV-37. -/
theorem test_shift_left :
    (afterStep (State.withRegs (loaded 0x801E) [(0, 0x40)])).reg 0 = 0x80 ∧
    (afterStep (State.withRegs (loaded 0x801E) [(0, 0x40)])).reg 15 = 0 ∧
    (afterStep (State.withRegs (loaded 0x8F1E) [(15, 0x81)])).reg 15 = 1 := by decide +kernel
/-- AV-39: the random byte injected by the harness is 0xA7. -/
theorem test_rand_mask :
    (afterStep ((loaded 0xC00F).setRnd [0xA7] 0)).reg 0 = 7 ∧
    (stepWith 0xA7 (loaded 0xC00F)).2.reg 0 = 7 := by decide +kernel

/-! ### Index register and memory -/

/-- MV-1. -/
theorem test_set_index : (afterStep (loaded 0xA300)).index = 0x300 := by decide +kernel
/-- MV-2, MV-3. -/
theorem test_add_index :
    (afterStep (State.withRegs ((loaded 0xF21E).setIndex 0xFFE) [(2, 2)])).index = 0x1000 ∧
    (afterStep (State.withRegs ((loaded 0xF21E).setIndex 0xFFE) [(2, 2)])).reg 15 = 1 ∧
    (afterStep (State.withRegs ((loaded 0xF21E).setIndex 0xFFE) [(2, 1)])).reg 15 = 0 := by decide +kernel
/-- MV-5: the 16-bit wrap. -/
theorem test_add_index_wraps :
    (afterStep (State.withRegs ((loaded 0xF01E).setIndex 0xFFFF) [(0, 1)])).index = 0 ∧
    (afterStep (State.withRegs ((loaded 0xF01E).setIndex 0xFFFF) [(0, 1)])).reg 15 = 0 := by decide +kernel
/-- MV-7, MV-9. -/
theorem test_font_address :
    (afterStep (State.withRegs (loaded 0xF029) [(0, 0xFF)])).index = 0x4FB ∧
    (afterStep (State.withRegs (loaded 0xF529) [(5, 0xF)])).index = 0x4B := by decide +kernel
/-- The start of MV-10. -/
def bcdAtTheEnd : State := State.withRegs ((loaded 0xF033).setIndex 0xFFD) [(0, 255)]
/-- MV-10. -/
theorem test_store_bcd :
    (afterStep bcdAtTheEnd).byteAt 0xFFD = 2 ∧ (afterStep bcdAtTheEnd).byteAt 0xFFE = 5 ∧
    (afterStep bcdAtTheEnd).byteAt 0xFFF = 5 := by decide +kernel
/-- MV-11, MV-12. -/
theorem test_store_bcd_errors :
    stepResult ((loaded 0xF033).setIndex 0xFFE) = ⟨.fatal .addressOutOfRange, false⟩ ∧
    stepResult ((loaded 0xF033).setIndex 0x1FF) = ⟨.fatal .writeProtected, false⟩ := by decide +kernel
/-- The start of MV-14. -/
def dumpAtTheEnd : State := State.withRegs ((loaded 0xFF55).setIndex 0xFF0) [(0, 1), (15, 0xEE)]
/-- MV-14. -/
theorem test_register_dump :
    (afterStep dumpAtTheEnd).byteAt 0xFF0 = 1 ∧ (afterStep dumpAtTheEnd).byteAt 0xFF1 = 0 ∧
    (afterStep dumpAtTheEnd).byteAt 0xFFF = 0xEE ∧ (afterStep dumpAtTheEnd).index = 0xFF0 := by decide +kernel
/-- MV-15, MV-16. -/
theorem test_register_dump_errors :
    stepResult ((loaded 0xFF55).setIndex 0xFF1) = ⟨.fatal .addressOutOfRange, false⟩ ∧
    stepResult ((loaded 0xF055).setIndex 0x1FF) = ⟨.fatal .writeProtected, false⟩ := by decide +kernel
/-- MV-19: the font is readable. -/
theorem test_register_load :
    (List.finRange 6).map (fun k => (afterStep (loaded 0xF465)).reg (k.castLE (by decide))) =
      [0xF0, 0x90, 0x90, 0x90, 0xF0, 0] := by decide +kernel
/-- MV-18. -/
theorem test_register_load_error : stepResult ((loaded 0xF165).setIndex 0xFFF) = ⟨.fatal .addressOutOfRange, false⟩ :=
  by decide +kernel

/-! ### Display -/

/-- DV-D12. -/
theorem test_clear_screen :
    cellsAt (afterStep ((loaded 0x00E0).setFb (toggleCell blankFb 63 31))) [(1, 0), (63, 31)] = [false, false] ∧
    (afterStep (loaded 0x00E0)).fbChanged = true ∧ stepResult (loaded 0x00E0) = ⟨.ok, true⟩ := by decide +kernel
/-- The start of DV-D4. -/
def drawAtTheCorner : State :=
  State.withRegs ((loaded 0xD122).setIndex 0x300) [(1, 62), (2, 31)] |>.pokeBytes 0x300 [0xFF, 0xFF]
/-- DV-D4: both axes wrap. -/
theorem test_draw_wraps :
    cellsAt (afterStep drawAtTheCorner) [(61, 31), (62, 31), (63, 31), (5, 31), (6, 31), (62, 0), (0, 0), (5, 0), (62, 1)] =
      [false, true, true, true, false, true, true, true, false] := by decide +kernel
/-- The start of DV-D9. -/
def drawOverOneCell : State :=
  ((loaded 0xD001).setIndex 0x300).setFb (toggleCell blankFb 1 0) |>.pokeBytes 0x300 [0xC0]
/-- DV-D9: one cell collides, its neighbour does not. -/
theorem test_draw_collides :
    cellsAt (afterStep drawOverOneCell) [(0, 0), (1, 0), (2, 0)] = [true, false, false] ∧
    (afterStep drawOverOneCell).reg 15 = 1 := by decide +kernel

/-! ### Keypad and timers -/

/-- PV-7, PV-5. -/
theorem test_skip_key_down :
    (afterStep (State.withRegs ((loaded 0xE59E).setKeys (keys [15]) (keys [])) [(5, 15)])).pc = 0x204 ∧
    stepResult (State.withRegs (loaded 0xE59E) [(5, 16)]) = ⟨.fatal .keyIndexOutOfRange, false⟩ := by decide +kernel
/-- PV-3, PV-6. -/
theorem test_skip_key_up :
    (afterStep (State.withRegs (loaded 0xE5A1) [(5, 3)])).pc = 0x204 ∧
    stepResult (State.withRegs (loaded 0xE5A1) [(5, 0xFF)]) = ⟨.fatal .keyIndexOutOfRange, false⟩ := by decide +kernel
/-- PV-10: a release is an edge. -/
theorem test_wait_key_release :
    (afterStep ((loaded 0xF60A).setKeys (keys [9]) (keys [4, 9]))).reg 6 = 4 ∧
    (afterStep ((loaded 0xF60A).setKeys (keys [9]) (keys [4, 9]))).pc = 0x202 := by decide +kernel
/-- PV-8, PV-11. -/
theorem test_wait_key_stalls :
    afterStep ((loaded 0xF60A).setKeys (keys [5]) (keys [5])) = (loaded 0xF60A).setKeys (keys [5]) (keys [5]) ∧
    stepResult (loaded 0xF60A) = ⟨.stalled, false⟩ := by decide +kernel
/-- PV-13. -/
theorem test_load_delay : (afterStep ((loaded 0xF307).setDt 0x2A)).reg 3 = 0x2A := by decide +kernel
/-- PV-14. -/
theorem test_set_delay : (afterStep (State.withRegs (loaded 0xF315) [(3, 60)])).dt = 60 := by decide +kernel
/-- PV-16: no signal. -/
theorem test_set_sound :
    (afterStep ((loaded 0xF418).setSt 1)).st = 0 ∧ (afterStep ((loaded 0xF418).setSt 1)).snd = false :=
  by decide +kernel

/-! ### Host operations -/

/-- HV-1, HV-2. -/
theorem test_tick :
    (tickTimers ((State.reset.setDt 2).setSt 1)).dt = 1 ∧ (tickTimers ((State.reset.setDt 2).setSt 1)).snd = true ∧
    (tickTimers (tickTimers ((State.reset.setDt 2).setSt 1))).snd = false := by decide +kernel
/-- HV-6, HV-8. -/
theorem test_input :
    (setInput (keys [3]) State.reset).edge = some 3 ∧
    (setInput (keys []) (setInput (keys [3]) (setInput (keys [3]) State.reset))).edge = some 3 := by decide +kernel
/-- HV-12, and S1's boundary. -/
theorem test_load_bounds :
    (loadProgram (List.replicate 3585 0) State.reset).1 = .malformedProgram ∧
    (loadProgram (List.replicate 3584 0) State.reset).1 = .ok := by decide +kernel
/-- HV-10, and the positions given after DV-D1. -/
theorem test_snapshot :
    ([0, 3, 4, 64, 65, 67, 259, 260].map fun k => (framebufferSnapshot (afterStep (loaded 0xD005))).1[k]?) =
      [some true, some true, some false, some true, some false, some true, some true, some false] ∧
    (framebufferSnapshot (afterStep (loaded 0xD005))).2.fbChanged = false := by decide +kernel
/-- HV-11. -/
theorem test_reset_erases : (resetOp (loaded 0x600A)).mem = [] ∧ (resetOp (loaded 0x600A)).byteAt 0x4B = 0xF0 :=
  by decide +kernel

/-! ### Witnesses: states and operands that meet the hypotheses of each statement, at the ends of their ranges -/

theorem witness_EncodeOfDecodeIsIdentity :
    decodeWord 0x8AB6 = .ok (.shiftRight 10 11) ∧ decodeWord 0xFF65 = .ok (.registerLoad 15) := by decide +kernel
theorem witness_StepRunsTheDecodedInstruction :
    (loaded 0x600A).Fetchable ∧ (loaded 0x600A).NextIs (.setImm 0 10) := by decide +kernel
theorem witness_FetchIsBigEndian :
    State.reset.Fetchable ∧ (State.reset.setPc 0).Fetchable ∧ (State.reset.setPc 4094).Fetchable := by decide +kernel
theorem witness_UnrecognizedWordAdvancesPc :
    State.reset.Fetchable ∧
      decodeBytes [State.reset.byteAt State.reset.pc.toNat, State.reset.byteAt (State.reset.pc.toNat + 1)] =
        .error .unknownOpcode := by decide +kernel
theorem witness_ProgramCounterFollowsThePolicy :
    ∃ t, exec (.skipEqImm 0 0) State.reset = .next t := ⟨_, rfl⟩
theorem witness_OnlyTheNamedStateIsWritten : ∃ t, exec (.addReg 0 1) State.reset = .next t := ⟨_, rfl⟩
theorem witness_StepLeavesTimersSoundAndKeysAlone :
    (∃ t, step (loaded 0x600A) = .next t) ∧ (∀ x, ¬(loaded 0x600A).NextIs (.setDelay x)) ∧
      ∀ x, ¬(loaded 0x600A).NextIs (.setSound x) := ⟨⟨_, rfl⟩, by decide +kernel, by decide +kernel⟩
theorem witness_FatalErrorLeavesTheStateUnchanged : step (loaded 0x00EE) = .fault .stackUnderflow := rfl
theorem witness_RandomInputReachesOnlyRandMask :
    (∀ x nn, ¬(loaded 0x1200).NextIs (.randMask x nn)) ∧
      (loaded 0xC30F).Fetchable ∧ (loaded 0xC30F).NextIs (.randMask 3 15) := by
  have h : decodeBytes [(loaded 0x1200).byteAt (loaded 0x1200).pc.toNat,
      (loaded 0x1200).byteAt ((loaded 0x1200).pc.toNat + 1)] = .ok (.jump 0x200, []) := by decide +kernel
  exact ⟨fun x nn e => by simp [State.NextIs, h] at e, by decide +kernel, by decide +kernel⟩
theorem witness_CallPushesItsOwnAddress :
    State.reset.sp.val < 16 ∧ (State.reset.setStack State.reset.stk 15).sp.val < 16 ∧
      (State.reset.setStack State.reset.stk 16).sp.val = 16 := by decide +kernel
theorem witness_ReturnPopsTheLastEntry :
    (State.reset.setStack State.reset.stk 1).sp.val = (0 : Fin 16).val + 1 ∧
      (State.reset.setStack State.reset.stk 16).sp.val = (15 : Fin 16).val + 1 ∧ State.reset.sp.val = 0 :=
  by decide +kernel
theorem witness_NestedCallsReturnInReverse :
    List.replicate 16 (0x200 : Addr) ≠ [] ∧ State.reset.sp.val + (List.replicate 16 (0x200 : Addr)).length ≤ 16 ∧
      [(0x200 : Addr)] ≠ [] ∧ (State.reset.setStack State.reset.stk 15).sp.val + [(0x200 : Addr)].length ≤ 16 :=
  by decide +kernel
/-- For AddRegSumAndCarry, SubtractionsAndNoBorrow and ShiftsAndTheBitShiftedOut. -/
theorem witness_destination_is_not_the_flag_register : (14 : Reg) ≠ 15 := by decide +kernel
theorem witness_RandMaskMasksTheRandomByte : (State.reset.setRnd [0xA7, 1] 0).rndIn = 0xA7 :: [1] := rfl
theorem witness_StoreBcdWritesThreeDigits :
    bcdAtTheEnd.MemCanonical ∧ 0x200 ≤ bcdAtTheEnd.dataAddr ∧ bcdAtTheEnd.dataAddr + 2 ≤ 4095 ∧
      0x200 ≤ (bcdAtTheEnd.setIndex 0x200).dataAddr ∧ (bcdAtTheEnd.setIndex 0x200).dataAddr + 2 ≤ 4095 :=
  by decide +kernel
theorem witness_RegisterDumpStoresRegisters :
    dumpAtTheEnd.MemCanonical ∧ 0x200 ≤ dumpAtTheEnd.dataAddr ∧ dumpAtTheEnd.dataAddr + (15 : Reg).val ≤ 4095 ∧
      0x200 ≤ (dumpAtTheEnd.setIndex 0x200).dataAddr ∧
      (dumpAtTheEnd.setIndex 0x200).dataAddr + (0 : Reg).val ≤ 4095 := by decide +kernel
theorem witness_RegisterLoadReadsRegisters :
    State.reset.dataAddr + (15 : Reg).val ≤ 4095 ∧
      (State.reset.setIndex 0xFFF).dataAddr + (0 : Reg).val ≤ 4095 := by decide +kernel
theorem witness_StoredBytesAreFetched :
    (State.reset.setIndex 0x208).MemCanonical ∧ 1 ≤ (1 : Reg).val ∧ 0x200 ≤ (State.reset.setIndex 0x208).dataAddr ∧
      (State.reset.setIndex 0x208).dataAddr + (1 : Reg).val ≤ 4095 ∧
      (State.reset.setIndex 0x208).dataAddr % 2 = 0 := by decide +kernel
theorem witness_CanonicalMemoryIsDeterminedByItsReads :
    Memory.wf defaultFont [(0x200, 7), (0xFFF, 1)] = true ∧
      ∀ a, Memory.read defaultFont [(0x200, 7), (0xFFF, 1)] a = Memory.read defaultFont [(0x200, 7), (0xFFF, 1)] a :=
  ⟨by decide +kernel, fun _ => rfl⟩
theorem witness_DrawFlipsTheCoveredCells :
    ((0 : Nibble).toNat = 0 ∨ (State.reset.setIndex 0xFFFF).dataAddr + (0 : Nibble).toNat - 1 ≤ 4095) ∧
      ((1 : Nibble).toNat = 0 ∨ (State.reset.setIndex 0xFFF).dataAddr + (1 : Nibble).toNat - 1 ≤ 4095) ∧
      (drawOverOneCell.SpriteCovers 0 0 1 1 0 ∧ drawOverOneCell.cell 1 0 = true) ∧
      ∀ cx cy, (loaded 0xD001).SpriteCovers 0 0 1 cx cy → (loaded 0xD001).cell cx cy = false := by decide +kernel
theorem witness_DrawTwiceRestores :
    ∃ t u, exec (.draw 0 0 1) drawOverOneCell = .next t ∧ t.reg 0 = drawOverOneCell.reg 0 ∧
      exec (.draw 0 0 1) t = .next u := ⟨_, _, rfl, by decide +kernel, rfl⟩
theorem witness_KeySkips :
    (State.reset.reg 5).toNat = (0 : Reg).val ∧
      ((State.withRegs State.reset [(5, 15)]).reg 5).toNat = (15 : Reg).val ∧
      15 < ((State.withRegs State.reset [(5, 16)]).reg 5).toNat := by decide +kernel
theorem witness_WaitKeyTakesTheLowestEdgeOrStalls :
    (State.reset.setKeys (keys [0, 7]) (keys [])).LowestEdge 0 ∧
      (State.reset.setKeys (keys []) (keys [15])).LowestEdge 15 ∧ State.reset.keyCur = State.reset.keyPrev := by
  decide +kernel
theorem witness_LoadedBytesReadBack :
    State.reset.MemCanonical ∧ (List.replicate 3584 (7 : Byte)).length ≤ 3584 ∧
      3584 < (List.replicate 3585 (7 : Byte)).length :=
  ⟨by decide +kernel, by rw [List.length_replicate], by rw [List.length_replicate]; decide⟩
theorem witness_IdleStepChangesNothing : (loaded 0x1200).Idle := by decide +kernel
theorem witness_StepKeepsTheInvariant : (loaded 0x600A).Inv ∧ ∃ t, step (loaded 0x600A) = .next t :=
  ⟨by decide +kernel, _, rfl⟩
/-- For HostRunKeepsTheInvariant and LowMemoryNeverChanges. -/
theorem witness_Inv_of_reset : State.reset.Inv := by decide +kernel

end Sys2Proof.Tests
end

/-! PROOFS. The fetched word and the bytes it is made of (20_memory.md). -/

namespace Sys2Proof.Machine

/-! ### The fields of a word as numbers (R81) -/

theorem fieldClass_toNat (op : Word) : (fieldClass op).toNat = op.toNat / 4096 := by
  have hop := op.isLt
  rw [fieldClass, BitVec.extractLsb'_toNat, Nat.shiftRight_eq_div_pow]
  omega

theorem fieldX_val (op : Word) : (fieldX op).val = op.toNat / 256 % 16 := by
  rw [fieldX, regOfBits, BitVec.val_toFin, BitVec.extractLsb'_toNat, Nat.shiftRight_eq_div_pow]

theorem fieldNN_toNat (op : Word) : (fieldNN op).toNat = op.toNat % 256 := by
  rw [fieldNN, BitVec.extractLsb'_toNat, Nat.shiftRight_zero]

/-! ### The fields of a word made of two bytes (R52) -/

/-- The high byte is `class` above `x`. -/
theorem toNat_highByte_eq_class_x (hi lo : Byte) :
    hi.toNat = 16 * (fieldClass (wordOfBytes hi lo)).toNat + (fieldX (wordOfBytes hi lo)).val := by
  have hlo := lo.isLt
  have hhi := hi.isLt
  rw [fieldClass_toNat, fieldX_val, wordOfBytes_toNat]
  omega

/-- The low byte is `nn`. -/
theorem fieldNN_wordOfBytes (hi lo : Byte) : fieldNN (wordOfBytes hi lo) = lo := by
  have hlo := lo.isLt
  apply BitVec.eq_of_toNat_eq
  rw [fieldNN_toNat, wordOfBytes_toNat]
  omega

/-- Settles O7: at a fetchable `pc` the fetched word is `wordAt pc`, whose value and fields are those of its bytes. -/
theorem fetchIsBigEndian : Obligations.FetchIsBigEndian := by
  rintro s ⟨hrange, heven⟩
  have hfetch : fetch s = .ok (s.wordAt s.pc.toNat) := fetch_ok_iff.2 ⟨hrange, heven, rfl⟩
  exact ⟨_, hfetch, wordOfBytes_toNat .., toNat_highByte_eq_class_x .., (fieldNN_wordOfBytes ..).symm⟩

end Sys2Proof.Machine

/-! PROOFS. A step on an unrecognized word (40_step_cycle.md). -/

namespace Sys2Proof.Machine

/-! ### What a step reads at a fetchable `pc` (R52, R101) -/

theorem State.Fetchable.fetch_eq {s : State} (h : s.Fetchable) : fetch s = .ok (s.wordAt s.pc.toNat) :=
  fetch_ok_iff.2 ⟨h.1, h.2, rfl⟩

/-- Two bytes are never too few, so they are rejected exactly as their word is. -/
theorem decodeBytes_pair_error_iff {hi lo : Byte} {e : Reject} :
    decodeBytes [hi, lo] = .error e ↔ decodeWord (wordOfBytes hi lo) = .error e := by
  rw [decodeBytes]
  cases decodeWord (wordOfBytes hi lo) <;> simp [Except.map]

/-! ### What it then does and reports (R105) -/

theorem step_of_decodeWord_error {s : State} {op : Word} {e : Reject} (hfetch : fetch s = .ok op)
    (hdecode : decodeWord op = .error e) : step s = .next s.advance := by
  simp only [step, hfetch, hdecode, unknownOpcode]

theorem stepResult_of_decodeWord_error {s : State} {op : Word} {e : Reject} (hfetch : fetch s = .ok op)
    (hdecode : decodeWord op = .error e) : stepResult s = ⟨.unknownOpcode, false⟩ := by
  simp only [stepResult, hfetch, hdecode]

/-- Writing `pc` leaves every register and every part beside it the same. -/
theorem unchangedExcept_setPc (s : State) (w : Word) : UnchangedExcept [] [] s (s.setPc w) := by
  refine ⟨fun r _ => State.reg_setPc s w r, fun p _ => ?_, State.setPc_cfg s w⟩
  cases p <;> simp [Part.Same]

/-- Settles O9: the rejected word is the one fetched at `pc`, so the step answers `s.advance`, which writes `pc` only. -/
theorem unrecognizedWordAdvancesPc : Obligations.UnrecognizedWordAdvancesPc := by
  intro s hpc hbytes
  have hdecode : decodeWord (s.wordAt s.pc.toNat) = .error .unknownOpcode := decodeBytes_pair_error_iff.1 hbytes
  exact ⟨s.advance, step_of_decodeWord_error hpc.fetch_eq hdecode, State.advance_pc s,
    unchangedExcept_setPc s (s.pc + 2), stepResult_of_decodeWord_error hpc.fetch_eq hdecode⟩

end Sys2Proof.Machine


/-! PROOFS. Jumps and calls (41_flow.md). -/

namespace Sys2Proof.Machine

/-! ### Target addresses as numbers (R5, R83) -/

@[simp] theorem zextAddr_toNat (nnn : Addr) : (zextAddr nnn).toNat = nnn.toNat :=
  BitVec.toNat_setWidth_of_le (by decide)

@[simp] theorem zextByte_toNat (b : Byte) : (zextByte b).toNat = b.toNat :=
  BitVec.toNat_setWidth_of_le (by decide)

/-- A 12-bit address plus a byte fits in 16 bits, so the sum does not wrap (R123). -/
theorem zextAddr_add_zextByte_toNat (nnn : Addr) (b : Byte) :
    (zextAddr nnn + zextByte b).toNat = nnn.toNat + b.toNat := by
  have hnnn := nnn.isLt
  have hb := b.isLt
  rw [BitVec.toNat_add, zextAddr_toNat, zextByte_toNat]
  omega

/-! ### What the stack and a later write of `pc` leave unchanged -/

/-- Every frame leaves `pc` free, so a last write of `pc` keeps it. -/
theorem UnchangedExcept.setPc {regs : List Reg} {parts : List Part} {s t : State}
    (h : UnchangedExcept regs parts s t) (w : Word) : UnchangedExcept regs parts s (t.setPc w) := by
  obtain ⟨hregs, hparts, hcfg⟩ := h
  refine ⟨hregs, fun p hp => ?_, hcfg⟩
  have hsame := hparts p hp
  cases p <;> exact hsame

theorem unchangedExcept_setStack (s : State) (stk : Vector Word 16) (sp : Fin 17) :
    UnchangedExcept [] [.stack] s (s.setStack stk sp) := by
  refine ⟨fun r _ => State.reg_setStack s stk sp r, fun p hp => ?_, State.setStack_cfg s stk sp⟩
  cases p with
  | stack => exact absurd (List.mem_singleton_self _) hp
  | _ => simp [Part.Same]

/-! ### What each transfer answers (R121 to R123) -/

theorem exec_jump (nnn : Addr) (s : State) : exec (.jump nnn) s = .next (s.setPc (zextAddr nnn)) := rfl

theorem exec_jumpOffset (nnn : Addr) (s : State) :
    exec (.jumpOffset nnn) s = .next (s.setPc (zextAddr nnn + zextByte (s.reg 0))) := rfl

theorem exec_call (nnn : Addr) (s : State) :
    exec (.call nnn) s = orRaise (pushStack s.pc s) fun t => .next (t.setPc (zextAddr nnn)) := rfl

theorem exec_call_of_pushStack_ok {nnn : Addr} {s t : State} (hpush : pushStack s.pc s = .ok t) :
    exec (.call nnn) s = .next (t.setPc (zextAddr nnn)) := by
  rw [exec_call, hpush, orRaise_ok]

theorem exec_call_of_pushStack_error {nnn : Addr} {s : State} {f : Fault} (hpush : pushStack s.pc s = .error f) :
    exec (.call nnn) s = .fault f := by
  rw [exec_call, hpush, orRaise_error]

/-! ### The obligations -/

/-- Settles O17: the answer writes `pc` alone. -/
theorem jumpSetsPc : Obligations.JumpSetsPc := fun nnn s =>
  ⟨_, exec_jump nnn s, zextAddr_toNat nnn, unchangedExcept_setPc s _⟩

/-- Settles O20: as for `jump`, and the sum fits in the word. -/
theorem jumpOffsetAddsRegisterZero : Obligations.JumpOffsetAddsRegisterZero := fun nnn s =>
  ⟨_, exec_jumpOffset nnn s, zextAddr_add_zextByte_toNat nnn (s.reg 0), unchangedExcept_setPc s _⟩

/-- Settles O18: the two cases are the two answers of `pushStack`. -/
theorem callPushesItsOwnAddress : Obligations.CallPushesItsOwnAddress := by
  intro nnn s
  constructor
  · intro hroom
    have hpush := pushStack_ok_iff (w := s.pc).2 ⟨hroom, rfl⟩
    refine ⟨_, exec_call_of_pushStack_ok hpush, zextAddr_toNat nnn, rfl, fun j => ?_,
      (unchangedExcept_setStack s _ _).setPc _⟩
    simp only [State.setPc_stk, State.setStack_stk, Fin.getElem_fin, Vector.getElem_set, eq_comm]
  · intro hfull
    exact exec_call_of_pushStack_error (pushStack_error_iff.2 ⟨rfl, hfull⟩)

end Sys2Proof.Machine


/-! PROOFS. Skips on immediates and registers (42_skip.md). -/

namespace Sys2Proof.Machine

/-! ### What a conditional skip does (R103) -/

theorem unchangedExcept_skipIf (s : State) (c : Bool) : UnchangedExcept [] [] s (s.skipIf c) :=
  unchangedExcept_setPc s _

theorem State.skipIf_beq_pc (s : State) (a b : Byte) :
    (s.skipIf (a == b)).pc = if a = b then s.pc + 4 else s.pc + 2 := by
  simp only [State.skipIf_pc, beq_iff_eq]

theorem State.skipIf_bne_pc (s : State) (a b : Byte) :
    (s.skipIf (a != b)).pc = if a = b then s.pc + 2 else s.pc + 4 := by
  simp only [State.skipIf_pc, bne_iff_ne, ite_not]

/-! ### What each skip answers (R130 to R133) -/

theorem exec_skipEqImm (x : Reg) (nn : Byte) (s : State) :
    exec (.skipEqImm x nn) s = .next (s.skipIf (s.reg x == nn)) := rfl

theorem exec_skipNeqImm (x : Reg) (nn : Byte) (s : State) :
    exec (.skipNeqImm x nn) s = .next (s.skipIf (s.reg x != nn)) := rfl

theorem exec_skipEqReg (x y : Reg) (s : State) :
    exec (.skipEqReg x y) s = .next (s.skipIf (s.reg x == s.reg y)) := rfl

theorem exec_skipNeqReg (x y : Reg) (s : State) :
    exec (.skipNeqReg x y) s = .next (s.skipIf (s.reg x != s.reg y)) := rfl

/-! ### The obligations -/

/-- Settles O22: both answers are a conditional skip, on `V[x] = nn` and on its negation. -/
theorem immediateSkips : Obligations.ImmediateSkips := fun x nn s =>
  ⟨⟨_, exec_skipEqImm x nn s, s.skipIf_beq_pc (s.reg x) nn, unchangedExcept_skipIf s _⟩,
    ⟨_, exec_skipNeqImm x nn s, s.skipIf_bne_pc (s.reg x) nn, unchangedExcept_skipIf s _⟩⟩

/-- Settles O23: as for the immediates, with `V[y]` in the place of `nn`. -/
theorem registerSkips : Obligations.RegisterSkips := fun x y s =>
  ⟨⟨_, exec_skipEqReg x y s, s.skipIf_beq_pc (s.reg x) (s.reg y), unchangedExcept_skipIf s _⟩,
    ⟨_, exec_skipNeqReg x y s, s.skipIf_bne_pc (s.reg x) (s.reg y), unchangedExcept_skipIf s _⟩⟩

end Sys2Proof.Machine


/-! PROOFS. The assignments, the immediate addition and the bitwise operations (43_alu.md). -/

namespace Sys2Proof.Machine

/-! ### What writing one register and advancing does (R36, R103) -/

/-- Writing `V[x]` leaves every other register and every part beside the registers the same. -/
theorem unchangedExcept_setReg (s : State) (x : Reg) (b : Byte) : UnchangedExcept [x] [] s (s.setReg x b) := by
  refine ⟨fun r hr => ?_, fun p _ => ?_, State.setReg_cfg s x b⟩
  · have hne : r ≠ x := List.mem_singleton.not.1 hr
    rw [State.reg_setReg, if_neg hne]
  · cases p <;> simp [Part.Same]

theorem unchangedExcept_setReg_advance (s : State) (x : Reg) (b : Byte) :
    UnchangedExcept [x] [] s (s.setReg x b).advance :=
  (unchangedExcept_setReg s x b).setPc _

theorem reg_setReg_advance_self (s : State) (x : Reg) (b : Byte) : (s.setReg x b).advance.reg x = b := by
  rw [State.reg_advance, State.reg_setReg, if_pos rfl]

theorem setReg_advance_pc (s : State) (x : Reg) (b : Byte) : (s.setReg x b).advance.pc = s.pc + 2 := by
  rw [State.advance_pc, State.setReg_pc]

/-! ### What each instruction answers (R140 to R145) -/

theorem exec_setImm (x : Reg) (nn : Byte) (s : State) : exec (.setImm x nn) s = .next (s.setReg x nn).advance := rfl

theorem exec_addImm (x : Reg) (nn : Byte) (s : State) :
    exec (.addImm x nn) s = .next (s.setReg x (s.reg x + nn)).advance := rfl

theorem exec_setReg (x y : Reg) (s : State) : exec (.setReg x y) s = .next (s.setReg x (s.reg y)).advance := rfl

theorem exec_orReg (x y : Reg) (s : State) :
    exec (.orReg x y) s = .next (s.setReg x (s.reg x ||| s.reg y)).advance := rfl

theorem exec_andReg (x y : Reg) (s : State) :
    exec (.andReg x y) s = .next (s.setReg x (s.reg x &&& s.reg y)).advance := rfl

theorem exec_xorReg (x y : Reg) (s : State) :
    exec (.xorReg x y) s = .next (s.setReg x (s.reg x ^^^ s.reg y)).advance := rfl

/-! ### The obligations -/

/-- Settles O24: the register reads back what was written. -/
theorem setImmWritesTheImmediate : Obligations.SetImmWritesTheImmediate := fun x nn s =>
  ⟨_, exec_setImm x nn s, reg_setReg_advance_self s x nn, setReg_advance_pc s x _, unchangedExcept_setReg_advance s x _⟩

/-- Settles O25: the byte sum written is the sum modulo 256. -/
theorem addImmWrapsWithoutFlag : Obligations.AddImmWrapsWithoutFlag := by
  intro x nn s
  refine ⟨_, exec_addImm x nn s, ?_, setReg_advance_pc s x _, unchangedExcept_setReg_advance s x _⟩
  rw [reg_setReg_advance_self, BitVec.toNat_add]

/-- Settles O26: the register reads back the old `V[y]`, also where `x = y`. -/
theorem setRegCopies : Obligations.SetRegCopies := fun x y s =>
  ⟨_, exec_setReg x y s, reg_setReg_advance_self s x _, setReg_advance_pc s x _, unchangedExcept_setReg_advance s x _⟩

/-- Settles O27: each bit of the byte written is the operation on the two old bits. -/
theorem bitwiseOperations : Obligations.BitwiseOperations := by
  intro x y s
  refine ⟨⟨_, exec_orReg x y s, fun k _ => ?or, setReg_advance_pc s x _, unchangedExcept_setReg_advance s x _⟩,
    ⟨_, exec_andReg x y s, fun k _ => ?and, setReg_advance_pc s x _, unchangedExcept_setReg_advance s x _⟩,
    ⟨_, exec_xorReg x y s, fun k _ => ?xor, setReg_advance_pc s x _, unchangedExcept_setReg_advance s x _⟩⟩
  case or => rw [reg_setReg_advance_self, BitVec.getLsbD_or]
  case and => rw [reg_setReg_advance_self, BitVec.getLsbD_and]
  case xor => rw [reg_setReg_advance_self, BitVec.getLsbD_xor]

end Sys2Proof.Machine


/-! PROOFS. The index register (44_index_memory.md). -/

namespace Sys2Proof.Machine

/-! ### The glyph address as a number (R162) -/

/-- Five times a byte is at most 1275, so the address does not wrap. -/
@[simp] theorem glyphAddr_toNat (v : Byte) : (glyphAddr v).toNat = 5 * v.toNat := by
  have hv := v.isLt
  rw [glyphAddr, BitVec.toNat_ofNat]
  omega

/-! ### What writing `I` and advancing does (R36, R103) -/

/-- Writing `I` leaves every register and every part beside `I` the same. -/
theorem unchangedExcept_setIndex (s : State) (w : Word) : UnchangedExcept [] [.index] s (s.setIndex w) := by
  refine ⟨fun r _ => State.reg_setIndex s w r, fun p hp => ?_, State.setIndex_cfg s w⟩
  cases p with
  | index => exact absurd (List.mem_singleton_self _) hp
  | _ => simp [Part.Same]

theorem unchangedExcept_setIndex_advance (s : State) (w : Word) :
    UnchangedExcept [] [.index] s (s.setIndex w).advance :=
  (unchangedExcept_setIndex s w).setPc _

theorem setIndex_advance_index_toNat (s : State) (w : Word) : (s.setIndex w).advance.index.toNat = w.toNat := by
  rw [State.advance_index, State.setIndex_index]

theorem setIndex_advance_pc (s : State) (w : Word) : (s.setIndex w).advance.pc = s.pc + 2 := by
  rw [State.advance_pc, State.setIndex_pc]

/-! ### What each instruction answers (R160, R162) -/

theorem exec_setIndex (nnn : Addr) (s : State) :
    exec (.setIndex nnn) s = .next (s.setIndex (zextAddr nnn)).advance := rfl

theorem exec_fontAddress (x : Reg) (s : State) :
    exec (.fontAddress x) s = .next (s.setIndex (glyphAddr (s.reg x))).advance := rfl

/-! ### The obligation -/

/-- Settles O32: `I` reads back the word written, and neither the address nor the glyph address loses a bit. -/
theorem indexIsSet : Obligations.IndexIsSet := by
  refine ⟨fun nnn s => ⟨_, exec_setIndex nnn s, ?address, setIndex_advance_pc s _, unchangedExcept_setIndex_advance s _⟩,
    fun x s => ⟨_, exec_fontAddress x s, ?glyph, setIndex_advance_pc s _, unchangedExcept_setIndex_advance s _⟩⟩
  case address => rw [setIndex_advance_index_toNat, zextAddr_toNat]
  case glyph => rw [setIndex_advance_index_toNat, glyphAddr_toNat]

end Sys2Proof.Machine


/-! PROOFS. Clearing the screen (45_display.md). -/

namespace Sys2Proof.Machine

/-! ### What a framebuffer write does (R36) -/

/-- Every cell of a state that holds the blank framebuffer is 0. -/
theorem State.cell_of_fb_eq_blankFb {s : State} (h : s.fb = blankFb) (cx : Fin 64) (cy : Fin 32) :
    s.cell cx cy = false := by
  simp [State.cell, h, blankFb]

/-- Writing the framebuffer and its changed flag leaves every register and every other part the same. -/
theorem unchangedExcept_setFb_setFbChanged (s : State) (fb : Framebuffer) (b : Bool) :
    UnchangedExcept [] [.cells, .fbChanged] s ((s.setFb fb).setFbChanged b) := by
  refine ⟨fun r _ => ?regs, fun p hp => ?parts, ?cfg⟩
  case regs => rw [State.reg_setFbChanged, State.reg_setFb]
  case parts =>
    cases p with
    | cells | fbChanged => simp at hp
    | _ => simp [Part.Same]
  case cfg => rw [State.setFbChanged_cfg, State.setFb_cfg]

/-! ### The state after `clear-screen` (R170) -/

/-- The successor of `clear-screen`: `exec_clearScreen` ties it to the model. -/
def State.cleared (s : State) : State := ((s.setFb blankFb).setFbChanged true).advance

theorem exec_clearScreen (s : State) : exec .clearScreen s = .next s.cleared := rfl

theorem State.cleared_fb (s : State) : s.cleared.fb = blankFb := by
  rw [State.cleared, State.advance_fb, State.setFbChanged_fb, State.setFb_fb]

theorem State.cleared_fbChanged (s : State) : s.cleared.fbChanged = true := by
  rw [State.cleared, State.advance_fbChanged, State.setFbChanged_fbChanged]

theorem State.cleared_pc (s : State) : s.cleared.pc = s.pc + 2 := by
  rw [State.cleared, State.advance_pc, State.setFbChanged_pc, State.setFb_pc]

theorem unchangedExcept_cleared (s : State) : UnchangedExcept [] [.cells, .fbChanged] s s.cleared :=
  (unchangedExcept_setFb_setFbChanged s blankFb true).setPc _

/-! ### The obligation -/

/-- Settles O39: the state after `clear-screen` holds the blank framebuffer, so every cell reads 0. -/
theorem clearScreenBlanksEveryCell : Obligations.ClearScreenBlanksEveryCell := fun s =>
  ⟨s.cleared, exec_clearScreen s, State.cell_of_fb_eq_blankFb s.cleared_fb, s.cleared_fbChanged, rfl, s.cleared_pc,
    unchangedExcept_cleared s⟩

end Sys2Proof.Machine


/-! PROOFS. The keypad and the timers (46_keypad_timers.md). -/

namespace Sys2Proof.Machine

theorem exec_loadDelay (x : Reg) (s : State) : exec (.loadDelay x) s = .next (s.setReg x s.dt).advance := rfl

/-- Settles O46: the register reads back the timer, and the frame of a register write keeps the timer itself. -/
theorem loadDelayReadsTheTimer : Obligations.LoadDelayReadsTheTimer := fun x s =>
  ⟨_, exec_loadDelay x s, reg_setReg_advance_self s x s.dt, setReg_advance_pc s x _, unchangedExcept_setReg_advance s x _⟩

end Sys2Proof.Machine


/-! PROOFS. Encoding and decoding (30_encoding.md). -/

namespace Sys2Proof.Machine

/-! ### The fields of a packed word (R81, R82) -/

theorem fieldY_val (op : Word) : (fieldY op).val = op.toNat / 16 % 16 := by
  rw [fieldY, regOfBits, BitVec.val_toFin, BitVec.extractLsb'_toNat, Nat.shiftRight_eq_div_pow]

theorem fieldN_toNat (op : Word) : (fieldN op).toNat = op.toNat % 16 := by
  rw [fieldN, BitVec.extractLsb'_toNat, Nat.shiftRight_zero]

theorem fieldNNN_toNat (op : Word) : (fieldNNN op).toNat = op.toNat % 4096 := by
  rw [fieldNNN, BitVec.extractLsb'_toNat, Nat.shiftRight_zero]

/-- Concatenation places its first argument above the second. -/
theorem toNat_append_eq_mul_add {m n : Nat} (a : BitVec m) (b : BitVec n) :
    (a ++ b).toNat = a.toNat * 2 ^ n + b.toNat := by
  rw [BitVec.toNat_append, ← Nat.shiftLeft_add_eq_or_of_lt b.isLt, Nat.shiftLeft_eq]

theorem packXYN_toNat (c : Nibble) (x y : Reg) (n : Nibble) :
    (packXYN c x y n).toNat = 4096 * c.toNat + 256 * x.val + 16 * y.val + n.toNat := by
  simp only [packXYN, toNat_append_eq_mul_add, bitsOfReg, BitVec.toNat_ofFin]
  omega

theorem packXNN_toNat (c : Nibble) (x : Reg) (nn : Byte) :
    (packXNN c x nn).toNat = 4096 * c.toNat + 256 * x.val + nn.toNat := by
  simp only [packXNN, toNat_append_eq_mul_add, bitsOfReg, BitVec.toNat_ofFin]
  omega

theorem packNNN_toNat (c : Nibble) (nnn : Addr) : (packNNN c nnn).toNat = 4096 * c.toNat + nnn.toNat := by
  simp only [packNNN, toNat_append_eq_mul_add]
  omega

section
variable (c : Nibble) (x y : Reg) (n : Nibble)

@[simp] theorem fieldClass_packXYN : fieldClass (packXYN c x y n) = c := by
  apply BitVec.eq_of_toNat_eq
  rw [fieldClass_toNat, packXYN_toNat]
  omega

@[simp] theorem fieldX_packXYN : fieldX (packXYN c x y n) = x := by
  apply Fin.ext
  rw [fieldX_val, packXYN_toNat]
  omega

@[simp] theorem fieldY_packXYN : fieldY (packXYN c x y n) = y := by
  apply Fin.ext
  rw [fieldY_val, packXYN_toNat]
  omega

@[simp] theorem fieldN_packXYN : fieldN (packXYN c x y n) = n := by
  apply BitVec.eq_of_toNat_eq
  rw [fieldN_toNat, packXYN_toNat]
  omega

end

section
variable (c : Nibble) (x : Reg) (nn : Byte)

@[simp] theorem fieldClass_packXNN : fieldClass (packXNN c x nn) = c := by
  apply BitVec.eq_of_toNat_eq
  rw [fieldClass_toNat, packXNN_toNat]
  omega

@[simp] theorem fieldX_packXNN : fieldX (packXNN c x nn) = x := by
  apply Fin.ext
  rw [fieldX_val, packXNN_toNat]
  omega

@[simp] theorem fieldNN_packXNN : fieldNN (packXNN c x nn) = nn := by
  apply BitVec.eq_of_toNat_eq
  rw [fieldNN_toNat, packXNN_toNat]
  omega

end

@[simp] theorem fieldClass_packNNN (c : Nibble) (nnn : Addr) : fieldClass (packNNN c nnn) = c := by
  apply BitVec.eq_of_toNat_eq
  rw [fieldClass_toNat, packNNN_toNat]
  omega

@[simp] theorem fieldNNN_packNNN (c : Nibble) (nnn : Addr) : fieldNNN (packNNN c nnn) = nnn := by
  apply BitVec.eq_of_toNat_eq
  rw [fieldNNN_toNat, packNNN_toNat]
  omega

/-! ### A word is its fields packed -/

theorem packXYN_fields (op : Word) : packXYN (fieldClass op) (fieldX op) (fieldY op) (fieldN op) = op := by
  apply BitVec.eq_of_toNat_eq
  rw [packXYN_toNat, fieldClass_toNat, fieldX_val, fieldY_val, fieldN_toNat]
  omega

theorem packXNN_fields (op : Word) : packXNN (fieldClass op) (fieldX op) (fieldNN op) = op := by
  apply BitVec.eq_of_toNat_eq
  rw [packXNN_toNat, fieldClass_toNat, fieldX_val, fieldNN_toNat]
  omega

theorem packNNN_fields (op : Word) : packNNN (fieldClass op) (fieldNNN op) = op := by
  apply BitVec.eq_of_toNat_eq
  rw [packNNN_toNat, fieldClass_toNat, fieldNNN_toNat]
  omega

/-! ### Decoding what was encoded -/

/-- Every instruction passes the operand check, since its operand types hold nothing out of range (R89). -/
theorem wellFormed_eq_true (i : Instr) : i.wellFormed = true :=
  match i with
  | .clearScreen => Laws.WellFormed.clearScreen
  | .ret => Laws.WellFormed.ret
  | .jump _ => Laws.WellFormed.jump _
  | .call _ => Laws.WellFormed.call _
  | .skipEqImm _ _ => Laws.WellFormed.skipEqImm _ _
  | .skipNeqImm _ _ => Laws.WellFormed.skipNeqImm _ _
  | .skipEqReg _ _ => Laws.WellFormed.skipEqReg _ _
  | .skipNeqReg _ _ => Laws.WellFormed.skipNeqReg _ _
  | .setImm _ _ => Laws.WellFormed.setImm _ _
  | .addImm _ _ => Laws.WellFormed.addImm _ _
  | .setReg _ _ => Laws.WellFormed.setReg _ _
  | .orReg _ _ => Laws.WellFormed.orReg _ _
  | .andReg _ _ => Laws.WellFormed.andReg _ _
  | .xorReg _ _ => Laws.WellFormed.xorReg _ _
  | .addReg _ _ => Laws.WellFormed.addReg _ _
  | .subReg _ _ => Laws.WellFormed.subReg _ _
  | .shiftRight _ _ => Laws.WellFormed.shiftRight _ _
  | .subnReg _ _ => Laws.WellFormed.subnReg _ _
  | .shiftLeft _ _ => Laws.WellFormed.shiftLeft _ _
  | .setIndex _ => Laws.WellFormed.setIndex _
  | .jumpOffset _ => Laws.WellFormed.jumpOffset _
  | .randMask _ _ => Laws.WellFormed.randMask _ _
  | .draw _ _ _ => Laws.WellFormed.draw _ _ _
  | .skipKeyDown _ => Laws.WellFormed.skipKeyDown _
  | .skipKeyUp _ => Laws.WellFormed.skipKeyUp _
  | .loadDelay _ => Laws.WellFormed.loadDelay _
  | .waitKey _ => Laws.WellFormed.waitKey _
  | .setDelay _ => Laws.WellFormed.setDelay _
  | .setSound _ => Laws.WellFormed.setSound _
  | .addIndex _ => Laws.WellFormed.addIndex _
  | .fontAddress _ => Laws.WellFormed.fontAddress _
  | .storeBcd _ => Laws.WellFormed.storeBcd _
  | .registerDump _ => Laws.WellFormed.registerDump _
  | .registerLoad _ => Laws.WellFormed.registerLoad _

/-- The class of a packed word selects its arm of the decoder, the sub-opcode the instruction, and each operand is read
from the field it was packed into. -/
theorem decodeWord_encode (i : Instr) : decodeWord (encode i) = .ok i := by
  cases i with
  | clearScreen | ret => rfl
  | jump | call | setIndex | jumpOffset => simp [encode, decodeWord]
  | skipEqImm | skipNeqImm | setImm | addImm | randMask => simp [encode, decodeWord]
  | skipEqReg | skipNeqReg => simp [encode, decodeWord, decodeWhenZero]
  | draw => simp [encode, decodeWord]
  | setReg | orReg | andReg | xorReg | addReg | subReg | shiftRight | subnReg | shiftLeft =>
    simp [encode, decodeWord, decodeClass8]
  | skipKeyDown | skipKeyUp => simp [encode, decodeWord, decodeClassE]
  | loadDelay | waitKey | setDelay | setSound | addIndex | fontAddress | storeBcd | registerDump | registerLoad =>
    simp [encode, decodeWord, decodeClassF]

theorem decodeBytes_encodeBytes_append (i : Instr) (rest : List Byte) :
    decodeBytes (encodeBytes i ++ rest) = .ok (i, rest) := by
  simp only [encodeBytes, bytesOfWord, List.cons_append, List.nil_append, decodeBytes, wordOfBytes_split,
    decodeWord_encode, Except.map]

/-- Settles O1: decoding reads each field of the encoded word back. -/
theorem decodeOfEncodeIsIdentity : Obligations.DecodeOfEncodeIsIdentity := fun i rest =>
  ⟨wellFormed_eq_true i, decodeBytes_encodeBytes_append i rest⟩

/-- Settles O5: each worked example is the encoding of its instruction, followed by the rest of the stream. -/
theorem workedExamplesDecode : Obligations.WorkedExamplesDecode :=
  ⟨decodeBytes_encodeBytes_append (.setImm 0 0x0A) [0x61, 0x05], decodeBytes_encodeBytes_append (.setImm 1 0x05) [],
    decodeBytes_encodeBytes_append (.addReg 0 1) [], decodeBytes_encodeBytes_append (.draw 1 2 5) [],
    decodeBytes_encodeBytes_append (.registerLoad 2) [], decodeBytes_encodeBytes_append (.jump 0x204) []⟩

end Sys2Proof.Machine


/-! PROOFS. The rows of the opcode table (30_encoding.md, R84 to R86). -/

namespace Sys2Proof.Machine

/-! ### What each arm of the decoder answers (R85) -/

theorem decodeWhenZero_ok_iff {n : Nibble} {i j : Instr} : decodeWhenZero n i = .ok j ↔ n = 0 ∧ i = j := by
  unfold decodeWhenZero
  split
  · next hn => simp [hn]
  · next hn => simp [hn]

theorem encode_of_decodeClass0 {op : Word} {i : Instr} (h : decodeClass0 op = .ok i) : encode i = op := by
  unfold decodeClass0 at h
  split at h
  · next hop => cases h; exact hop.symm
  · split at h
    · next hop => cases h; exact hop.symm
    · cases h

/-- A nibble is determined by its number, in the form in which the sub-opcode matches give it. -/
theorem nibble_eq_of_toNat {n : Nibble} {k : Nat} (h : n.toNat = k) : n = BitVec.ofNat 4 k := by
  rw [← h, BitVec.ofNat_toNat, BitVec.setWidth_eq]

theorem byte_eq_of_toNat {b : Byte} {k : Nat} (h : b.toNat = k) : b = BitVec.ofNat 8 k := by
  rw [← h, BitVec.ofNat_toNat, BitVec.setWidth_eq]

theorem encode_of_decodeClass8 {n : Nibble} {x y : Reg} {i : Instr} (h : decodeClass8 n x y = .ok i) :
    encode i = packXYN 0x8#4 x y n := by
  unfold decodeClass8 at h
  split at h <;> cases h <;> next hn => rw [nibble_eq_of_toNat hn]; rfl

theorem encode_of_decodeClassE {nn : Byte} {x : Reg} {i : Instr} (h : decodeClassE nn x = .ok i) :
    encode i = packXNN 0xE#4 x nn := by
  unfold decodeClassE at h
  split at h <;> cases h <;> next hnn => rw [byte_eq_of_toNat hnn]; rfl

theorem encode_of_decodeClassF {nn : Byte} {x : Reg} {i : Instr} (h : decodeClassF nn x = .ok i) :
    encode i = packXNN 0xF#4 x nn := by
  unfold decodeClassF at h
  split at h <;> cases h <;> next hnn => rw [byte_eq_of_toNat hnn]; rfl

section
variable {op : Word} {k : Nat} (hclass : (fieldClass op).toNat = k)
include hclass

theorem packXYN_of_class : packXYN (BitVec.ofNat 4 k) (fieldX op) (fieldY op) (fieldN op) = op := by
  rw [← nibble_eq_of_toNat hclass, packXYN_fields]

theorem packXNN_of_class : packXNN (BitVec.ofNat 4 k) (fieldX op) (fieldNN op) = op := by
  rw [← nibble_eq_of_toNat hclass, packXNN_fields]

theorem packNNN_of_class : packNNN (BitVec.ofNat 4 k) (fieldNNN op) = op := by
  rw [← nibble_eq_of_toNat hclass, packNNN_fields]

end

theorem encode_of_decodeWord {op : Word} {i : Instr} (h : decodeWord op = .ok i) : encode i = op := by
  unfold decodeWord at h
  split at h
  case h_1 => exact encode_of_decodeClass0 h
  case h_2 hc | h_3 hc | h_11 hc | h_12 hc => cases h; exact packNNN_of_class hc
  case h_4 hc | h_5 hc | h_7 hc | h_8 hc | h_13 hc => cases h; exact packXNN_of_class hc
  case h_6 hc | h_10 hc =>
    obtain ⟨hn, rfl⟩ := decodeWhenZero_ok_iff.1 h
    exact (congrArg _ hn.symm).trans (packXYN_of_class hc)
  case h_9 hc => exact (encode_of_decodeClass8 h).trans (packXYN_of_class hc)
  case h_14 hc => cases h; exact packXYN_of_class hc
  case h_15 hc => exact (encode_of_decodeClassE h).trans (packXNN_of_class hc)
  case h_16 =>
    have hlt := (fieldClass op).isLt
    have hc : (fieldClass op).toNat = 15 := by simp only [imp_false] at *; omega
    exact (encode_of_decodeClassF h).trans (packXNN_of_class hc)

/-- Settles O2: each arm of the decoder keeps the class and every field of the word. -/
theorem encodeOfDecodeIsIdentity : Obligations.EncodeOfDecodeIsIdentity := fun _ _ => encode_of_decodeWord
/-! ### A word that matches a row is the encoding of an instruction of that row (R84) -/

theorem encode_matches_pattern (i : Instr) : encode i &&& i.pattern.1 = i.pattern.2 :=
  match i with
  | .clearScreen => Laws.TablePattern.clearScreen
  | .ret => Laws.TablePattern.ret
  | .jump _ => Laws.TablePattern.jump _
  | .call _ => Laws.TablePattern.call _
  | .skipEqImm _ _ => Laws.TablePattern.skipEqImm _ _
  | .skipNeqImm _ _ => Laws.TablePattern.skipNeqImm _ _
  | .skipEqReg _ _ => Laws.TablePattern.skipEqReg _ _
  | .skipNeqReg _ _ => Laws.TablePattern.skipNeqReg _ _
  | .setImm _ _ => Laws.TablePattern.setImm _ _
  | .addImm _ _ => Laws.TablePattern.addImm _ _
  | .setReg _ _ => Laws.TablePattern.setReg _ _
  | .orReg _ _ => Laws.TablePattern.orReg _ _
  | .andReg _ _ => Laws.TablePattern.andReg _ _
  | .xorReg _ _ => Laws.TablePattern.xorReg _ _
  | .addReg _ _ => Laws.TablePattern.addReg _ _
  | .subReg _ _ => Laws.TablePattern.subReg _ _
  | .shiftRight _ _ => Laws.TablePattern.shiftRight _ _
  | .subnReg _ _ => Laws.TablePattern.subnReg _ _
  | .shiftLeft _ _ => Laws.TablePattern.shiftLeft _ _
  | .setIndex _ => Laws.TablePattern.setIndex _
  | .jumpOffset _ => Laws.TablePattern.jumpOffset _
  | .randMask _ _ => Laws.TablePattern.randMask _ _
  | .draw _ _ _ => Laws.TablePattern.draw _ _ _
  | .skipKeyDown _ => Laws.TablePattern.skipKeyDown _
  | .skipKeyUp _ => Laws.TablePattern.skipKeyUp _
  | .loadDelay _ => Laws.TablePattern.loadDelay _
  | .waitKey _ => Laws.TablePattern.waitKey _
  | .setDelay _ => Laws.TablePattern.setDelay _
  | .setSound _ => Laws.TablePattern.setSound _
  | .addIndex _ => Laws.TablePattern.addIndex _
  | .fontAddress _ => Laws.TablePattern.fontAddress _
  | .storeBcd _ => Laws.TablePattern.storeBcd _
  | .registerDump _ => Laws.TablePattern.registerDump _
  | .registerLoad _ => Laws.TablePattern.registerLoad _

section
variable {op : Word} {c : Nibble}

/-- A word of format `NNN` is determined by its class and its operand. -/
theorem eq_packNNN_of_masked (h : op &&& 0xF000#16 = packNNN c 0#12) : op = packNNN c (fieldNNN op) := by
  rw [← packNNN_fields op, Laws.packNNN_masked] at h
  have hc : fieldClass op = c := by simpa using congrArg fieldClass h
  rw [← hc, packNNN_fields]

theorem eq_packXNN_of_masked (h : op &&& 0xF000#16 = packXNN c 0 0#8) : op = packXNN c (fieldX op) (fieldNN op) := by
  rw [← packXNN_fields op, Laws.packXNN_masked] at h
  have hc : fieldClass op = c := by simpa using congrArg fieldClass h
  rw [← hc, packXNN_fields]

/-- In format `X` the sub-opcode `nn` is matched too. -/
theorem eq_packX_of_masked {nn : Byte} (h : op &&& 0xF0FF#16 = packXNN c 0 nn) : op = packXNN c (fieldX op) nn := by
  rw [← packXNN_fields op, Laws.packX_masked] at h
  have hc : fieldClass op = c := by simpa using congrArg fieldClass h
  have hnn : fieldNN op = nn := by simpa using congrArg fieldNN h
  rw [← hc, ← hnn, packXNN_fields]

/-- In format `XY` the sub-opcode `n` is matched too. -/
theorem eq_packXY_of_masked {n : Nibble} (h : op &&& 0xF00F#16 = packXYN c 0 0 n) :
    op = packXYN c (fieldX op) (fieldY op) n := by
  rw [← packXYN_fields op, Laws.packXY_masked] at h
  have hc : fieldClass op = c := by simpa using congrArg fieldClass h
  have hn : fieldN op = n := by simpa using congrArg fieldN h
  rw [← hc, ← hn, packXYN_fields]

theorem eq_packXYN_of_masked (h : op &&& 0xF000#16 = packXYN c 0 0 0#4) :
    op = packXYN c (fieldX op) (fieldY op) (fieldN op) := by
  rw [← packXYN_fields op, Laws.packXYN_masked] at h
  have hc : fieldClass op = c := by simpa using congrArg fieldClass h
  rw [← hc, packXYN_fields]

end

/-- A row whose mask is the whole word holds one word. -/
theorem eq_of_and_allOnes {op w : Word} (h : op &&& 0xFFFF#16 = w) : op = w := by
  rw [← h]
  exact BitVec.and_allOnes.symm

/-- The operands of that instruction are the word's fields. -/
theorem exists_encode_of_matches_pattern {op : Word} {i : Instr} (h : op &&& i.pattern.1 = i.pattern.2) :
    ∃ j, op = encode j ∧ j.pattern = i.pattern := by
  cases i with
  | clearScreen => exact ⟨.clearScreen, eq_of_and_allOnes h, rfl⟩
  | ret => exact ⟨.ret, eq_of_and_allOnes h, rfl⟩
  | jump => exact ⟨.jump (fieldNNN op), eq_packNNN_of_masked h, rfl⟩
  | call => exact ⟨.call (fieldNNN op), eq_packNNN_of_masked h, rfl⟩
  | setIndex => exact ⟨.setIndex (fieldNNN op), eq_packNNN_of_masked h, rfl⟩
  | jumpOffset => exact ⟨.jumpOffset (fieldNNN op), eq_packNNN_of_masked h, rfl⟩
  | skipEqImm => exact ⟨.skipEqImm (fieldX op) (fieldNN op), eq_packXNN_of_masked h, rfl⟩
  | skipNeqImm => exact ⟨.skipNeqImm (fieldX op) (fieldNN op), eq_packXNN_of_masked h, rfl⟩
  | setImm => exact ⟨.setImm (fieldX op) (fieldNN op), eq_packXNN_of_masked h, rfl⟩
  | addImm => exact ⟨.addImm (fieldX op) (fieldNN op), eq_packXNN_of_masked h, rfl⟩
  | randMask => exact ⟨.randMask (fieldX op) (fieldNN op), eq_packXNN_of_masked h, rfl⟩
  | skipEqReg => exact ⟨.skipEqReg (fieldX op) (fieldY op), eq_packXY_of_masked h, rfl⟩
  | skipNeqReg => exact ⟨.skipNeqReg (fieldX op) (fieldY op), eq_packXY_of_masked h, rfl⟩
  | setReg => exact ⟨.setReg (fieldX op) (fieldY op), eq_packXY_of_masked h, rfl⟩
  | orReg => exact ⟨.orReg (fieldX op) (fieldY op), eq_packXY_of_masked h, rfl⟩
  | andReg => exact ⟨.andReg (fieldX op) (fieldY op), eq_packXY_of_masked h, rfl⟩
  | xorReg => exact ⟨.xorReg (fieldX op) (fieldY op), eq_packXY_of_masked h, rfl⟩
  | addReg => exact ⟨.addReg (fieldX op) (fieldY op), eq_packXY_of_masked h, rfl⟩
  | subReg => exact ⟨.subReg (fieldX op) (fieldY op), eq_packXY_of_masked h, rfl⟩
  | shiftRight => exact ⟨.shiftRight (fieldX op) (fieldY op), eq_packXY_of_masked h, rfl⟩
  | subnReg => exact ⟨.subnReg (fieldX op) (fieldY op), eq_packXY_of_masked h, rfl⟩
  | shiftLeft => exact ⟨.shiftLeft (fieldX op) (fieldY op), eq_packXY_of_masked h, rfl⟩
  | draw => exact ⟨.draw (fieldX op) (fieldY op) (fieldN op), eq_packXYN_of_masked h, rfl⟩
  | skipKeyDown => exact ⟨.skipKeyDown (fieldX op), eq_packX_of_masked h, rfl⟩
  | skipKeyUp => exact ⟨.skipKeyUp (fieldX op), eq_packX_of_masked h, rfl⟩
  | loadDelay => exact ⟨.loadDelay (fieldX op), eq_packX_of_masked h, rfl⟩
  | waitKey => exact ⟨.waitKey (fieldX op), eq_packX_of_masked h, rfl⟩
  | setDelay => exact ⟨.setDelay (fieldX op), eq_packX_of_masked h, rfl⟩
  | setSound => exact ⟨.setSound (fieldX op), eq_packX_of_masked h, rfl⟩
  | addIndex => exact ⟨.addIndex (fieldX op), eq_packX_of_masked h, rfl⟩
  | fontAddress => exact ⟨.fontAddress (fieldX op), eq_packX_of_masked h, rfl⟩
  | storeBcd => exact ⟨.storeBcd (fieldX op), eq_packX_of_masked h, rfl⟩
  | registerDump => exact ⟨.registerDump (fieldX op), eq_packX_of_masked h, rfl⟩
  | registerLoad => exact ⟨.registerLoad (fieldX op), eq_packX_of_masked h, rfl⟩

/-- Settles O3: a word that matches a row encodes an instruction of the row, and a decoded word matches its own row. -/
theorem wordSelectsTheRowItMatches : Obligations.WordSelectsTheRowItMatches := by
  intro op i
  constructor
  · intro h
    obtain ⟨j, rfl, hj⟩ := exists_encode_of_matches_pattern h
    exact ⟨j, decodeWord_encode j, hj⟩
  · rintro ⟨j, hdecode, hj⟩
    rw [← hj, ← encode_of_decodeWord hdecode]
    exact encode_matches_pattern j

/-! ### The words that no row matches (R86) -/

theorem decodeClass0_error_iff {op : Word} {e : Reject} :
    decodeClass0 op = .error e ↔ e = .unknownOpcode ∧ op ≠ 0x00E0#16 ∧ op ≠ 0x00EE#16 := by
  unfold decodeClass0
  split
  · next h => simp [h]
  · next h0 =>
    split
    · next h => simp [h]
    · next h1 => simp [h0, h1, eq_comm]

theorem decodeWhenZero_error_iff {n : Nibble} {i : Instr} {e : Reject} :
    decodeWhenZero n i = .error e ↔ e = .unknownOpcode ∧ n.toNat ≠ 0 := by
  unfold decodeWhenZero
  split
  · next hn => simp [hn]
  · next hn =>
    have hn' : n.toNat ≠ 0 := fun h => hn (nibble_eq_of_toNat h)
    simp [hn', eq_comm]

theorem decodeClass8_error_iff {n : Nibble} {x y : Reg} {e : Reject} :
    decodeClass8 n x y = .error e ↔ e = .unknownOpcode ∧ n.toNat ∈ [0x8, 0x9, 0xA, 0xB, 0xC, 0xD, 0xF] := by
  have hn := n.isLt
  unfold decodeClass8
  split
  case h_10 =>
    have hmem : n.toNat ∈ [0x8, 0x9, 0xA, 0xB, 0xC, 0xD, 0xF] := by
      simp only [imp_false, List.mem_cons, List.not_mem_nil, or_false] at *
      omega
    simp only [Except.error.injEq, hmem, and_true, eq_comm]
  all_goals next hk => simp [hk]

theorem decodeClassE_error_iff {nn : Byte} {x : Reg} {e : Reject} :
    decodeClassE nn x = .error e ↔ e = .unknownOpcode ∧ nn.toNat ∉ [0x9E, 0xA1] := by
  unfold decodeClassE
  split
  case h_3 =>
    have hmem : nn.toNat ∉ [0x9E, 0xA1] := by
      simp only [imp_false, List.mem_cons, List.not_mem_nil, or_false] at *
      omega
    simp only [Except.error.injEq, hmem, not_false_eq_true, and_true, eq_comm]
  all_goals next hk => simp [hk]

theorem decodeClassF_error_iff {nn : Byte} {x : Reg} {e : Reject} :
    decodeClassF nn x = .error e ↔
      e = .unknownOpcode ∧ nn.toNat ∉ [0x07, 0x0A, 0x15, 0x18, 0x1E, 0x29, 0x33, 0x55, 0x65] := by
  unfold decodeClassF
  split
  case h_10 =>
    have hmem : nn.toNat ∉ [0x07, 0x0A, 0x15, 0x18, 0x1E, 0x29, 0x33, 0x55, 0x65] := by
      simp only [imp_false, List.mem_cons, List.not_mem_nil, or_false] at *
      omega
    simp only [Except.error.injEq, hmem, not_false_eq_true, and_true, eq_comm]
  all_goals next hk => simp [hk]

/-- Settles O4: class by class, from what each arm of the decoder rejects. -/
theorem unrecognizedWordsAreThoseListed : Obligations.UnrecognizedWordsAreThoseListed := by
  intro op
  have hlt := (fieldClass op).isLt
  unfold decodeWord
  rw [← fieldClass_toNat, ← fieldN_toNat, ← fieldNN_toNat]
  split
  case h_1 hc => simp [hc, decodeClass0_error_iff, ← BitVec.toNat_inj]
  case h_6 hc | h_10 hc => simp [hc, decodeWhenZero_error_iff]
  case h_9 hc => simp [hc, decodeClass8_error_iff]
  case h_15 hc => simp [hc, decodeClassE_error_iff]
  case h_16 =>
    have hc : (fieldClass op).toNat = 15 := by simp only [imp_false] at *; omega
    simp [hc, decodeClassF_error_iff]
  all_goals next hc => simp [hc]

end Sys2Proof.Machine


/-! PROOFS. Arithmetic with a flag, the shifts, the random byte (43_alu.md) and `add-index` (44_index_memory.md). -/

namespace Sys2Proof.Machine

/-! ### Frames compose -/

theorem Part.Same.trans {p : Part} {s t u : State} (hst : p.Same s t) (htu : p.Same t u) : p.Same s u := by
  cases p with
  | index | delayTimer | soundTimer | soundSignal | fbChanged => exact Eq.trans htu hst
  | stack => exact ⟨htu.1.trans hst.1, fun j => (htu.2 j).trans (hst.2 j)⟩
  | keypad | random => exact ⟨htu.1.trans hst.1, htu.2.trans hst.2⟩
  | cells => exact fun cx cy => (htu cx cy).trans (hst cx cy)
  | memory => exact fun a => (htu a).trans (hst a)

theorem UnchangedExcept.trans {regs : List Reg} {parts : List Part} {s t u : State}
    (hst : UnchangedExcept regs parts s t) (htu : UnchangedExcept regs parts t u) : UnchangedExcept regs parts s u := by
  obtain ⟨hregs, hparts, hcfg⟩ := hst
  obtain ⟨hregs', hparts', hcfg'⟩ := htu
  exact ⟨fun r hr => (hregs' r hr).trans (hregs r hr), fun p hp => (hparts p hp).trans (hparts' p hp), hcfg'.trans hcfg⟩

/-- A frame that lets more be written is weaker. -/
theorem UnchangedExcept.mono {regs regs' : List Reg} {parts parts' : List Part} {s t : State}
    (h : UnchangedExcept regs parts s t) (hr : regs ⊆ regs') (hp : parts ⊆ parts') :
    UnchangedExcept regs' parts' s t := by
  obtain ⟨hregs, hparts, hcfg⟩ := h
  exact ⟨fun r hn => hregs r fun hmem => hn (hr hmem), fun p hn => hparts p fun hmem => hn (hp hmem), hcfg⟩

/-! ### What writing the flag does (R21, R153) -/

/-- The byte left in `VF`, as a number. -/
theorem flagByte_toNat (f : Bool) : (if f then 1 else 0 : Byte).toNat = f.toNat := by
  cases f <;> rfl

theorem unchangedExcept_setFlag (s : State) (f : Bool) : UnchangedExcept [15] [] s (s.setFlag f) :=
  unchangedExcept_setReg s 15 _

theorem unchangedExcept_setRegThenFlag_advance (s : State) (x : Reg) (b : Byte) (f : Bool) :
    UnchangedExcept [x, 15] [] s (s.setRegThenFlag x b f).advance := by
  have hreg : UnchangedExcept [x, 15] [] s (s.setReg x b) := (unchangedExcept_setReg s x b).mono (by simp) (by simp)
  have hflag : UnchangedExcept [x, 15] [] (s.setReg x b) ((s.setReg x b).setFlag f) :=
    (unchangedExcept_setFlag _ f).mono (by simp) (by simp)
  exact (hreg.trans hflag).setPc _

theorem reg_setRegThenFlag_advance_dest (s : State) {x : Reg} (hx : x ≠ 15) (b : Byte) (f : Bool) :
    (s.setRegThenFlag x b f).advance.reg x = b := by
  have hne : x ≠ flagReg := hx
  rw [State.reg_advance, State.reg_setRegThenFlag, if_neg hne, if_pos rfl]

theorem reg_setRegThenFlag_advance_flag (s : State) (x : Reg) (b : Byte) (f : Bool) :
    (s.setRegThenFlag x b f).advance.reg 15 = if f then 1 else 0 := by
  rw [State.reg_advance, State.reg_setRegThenFlag]
  exact if_pos rfl

theorem setRegThenFlag_advance_pc (s : State) (x : Reg) (b : Byte) (f : Bool) :
    (s.setRegThenFlag x b f).advance.pc = s.pc + 2 := by
  rw [State.advance_pc, State.setRegThenFlag_pc]

/-! ### What each instruction answers (R146 to R151, R161) -/

theorem exec_addReg (x y : Reg) (s : State) : exec (.addReg x y) s =
    .next (s.setRegThenFlag x (s.reg x + s.reg y) (carryFlag (s.reg x) (s.reg y))).advance := rfl

theorem exec_subReg (x y : Reg) (s : State) : exec (.subReg x y) s =
    .next (s.setRegThenFlag x (s.reg x - s.reg y) (noBorrowFlag (s.reg x) (s.reg y))).advance := rfl

theorem exec_subnReg (x y : Reg) (s : State) : exec (.subnReg x y) s =
    .next (s.setRegThenFlag x (s.reg y - s.reg x) (noBorrowFlag (s.reg y) (s.reg x))).advance := rfl

theorem exec_shiftRight (x y : Reg) (s : State) : exec (.shiftRight x y) s =
    .next (s.setRegThenFlag x (s.reg x >>> 1) (lowBitFlag (s.reg x))).advance := rfl

theorem exec_shiftLeft (x y : Reg) (s : State) : exec (.shiftLeft x y) s =
    .next (s.setRegThenFlag x (s.reg x <<< 1) (highBitFlag (s.reg x))).advance := rfl

theorem exec_randMask (x : Reg) (nn : Byte) (s : State) :
    exec (.randMask x nn) s = .next (s.consumeRnd.setReg x (s.rnd &&& nn)).advance := rfl

theorem exec_addIndex (x : Reg) (s : State) : exec (.addIndex x) s =
    .next ((s.setIndex (s.index + zextByte (s.reg x))).setFlag
      (indexFlag (s.index + zextByte (s.reg x)))).advance := rfl

/-! ### Results and flags as numbers -/

theorem sub_toNat (a b : Byte) : (a - b).toNat = (a.toNat + 256 - b.toNat) % 256 := by
  have hb := b.isLt
  rw [BitVec.toNat_sub]
  omega

theorem shiftRight_one_toNat (a : Byte) : (a >>> 1).toNat = a.toNat / 2 := by
  rw [BitVec.toNat_ushiftRight, Nat.shiftRight_eq_div_pow]

theorem shiftLeft_one_toNat (a : Byte) : (a <<< 1).toNat = a.toNat * 2 % 256 := by
  rw [BitVec.toNat_shiftLeft, Nat.shiftLeft_eq]

theorem lowBitFlag_toNat (a : Byte) : (lowBitFlag a).toNat = a.toNat % 2 := by
  rw [lowBitFlag, BitVec.getLsbD, Nat.toNat_testBit, Nat.pow_zero, Nat.div_one]

theorem highBitFlag_toNat (a : Byte) : (highBitFlag a).toNat = a.toNat / 128 := by
  have ha := a.isLt
  rw [highBitFlag, BitVec.getLsbD, Nat.toNat_testBit]
  omega

/-- A test as a flag is the flag byte of the test. -/
theorem flagByte_decide (p : Prop) [Decidable p] : (if decide p then 1 else 0 : Byte) = if p then 1 else 0 := by
  simp only [decide_eq_true_eq]

theorem index_add_zextByte_toNat (w : Word) (b : Byte) :
    (w + zextByte b).toNat = (w.toNat + b.toNat) % 65536 := by
  rw [BitVec.toNat_add, zextByte_toNat]

/-! ### The obligations -/

/-- Settles O28: the byte sum is the sum modulo 256, and the flag is written last. -/
theorem addRegSumAndCarry : Obligations.AddRegSumAndCarry := by
  intro x y s
  refine ⟨_, exec_addReg x y s, fun hx => ?sum, ?carry, setRegThenFlag_advance_pc ..,
    unchangedExcept_setRegThenFlag_advance ..⟩
  case sum => rw [reg_setRegThenFlag_advance_dest s hx, BitVec.toNat_add]
  case carry => rw [reg_setRegThenFlag_advance_flag, carryFlag, flagByte_decide]

/-- Settles O29: as for the addition, each of the two with its own minuend. -/
theorem subtractionsAndNoBorrow : Obligations.SubtractionsAndNoBorrow := by
  intro x y s
  refine ⟨⟨_, exec_subReg x y s, fun hx => ?sub, ?subFlag, setRegThenFlag_advance_pc ..,
      unchangedExcept_setRegThenFlag_advance ..⟩,
    ⟨_, exec_subnReg x y s, fun hx => ?subn, ?subnFlag, setRegThenFlag_advance_pc ..,
      unchangedExcept_setRegThenFlag_advance ..⟩⟩
  case sub | subn => rw [reg_setRegThenFlag_advance_dest s hx, sub_toNat]
  case subFlag | subnFlag => rw [reg_setRegThenFlag_advance_flag, noBorrowFlag, flagByte_decide]

/-- Settles O30: the answers do not name `V[y]`, and the flag is the low, respectively the high bit of the
old `V[x]`. -/
theorem shiftsAndTheBitShiftedOut : Obligations.ShiftsAndTheBitShiftedOut := by
  intro x y s
  refine ⟨⟨_, exec_shiftRight x y s, fun hx => ?right, ?rightFlag, setRegThenFlag_advance_pc ..,
      unchangedExcept_setRegThenFlag_advance ..⟩,
    ⟨_, exec_shiftLeft x y s, fun hx => ?left, ?leftFlag, setRegThenFlag_advance_pc ..,
      unchangedExcept_setRegThenFlag_advance ..⟩, fun y' => ⟨?rightIgnoresY, ?leftIgnoresY⟩⟩
  case right => rw [reg_setRegThenFlag_advance_dest s hx, shiftRight_one_toNat]
  case rightFlag => rw [reg_setRegThenFlag_advance_flag, flagByte_toNat, lowBitFlag_toNat]
  case left => rw [reg_setRegThenFlag_advance_dest s hx, shiftLeft_one_toNat]
  case leftFlag => rw [reg_setRegThenFlag_advance_flag, flagByte_toNat, highBitFlag_toNat]
  case rightIgnoresY => rw [exec_shiftRight, exec_shiftRight]
  case leftIgnoresY => rw [exec_shiftLeft, exec_shiftLeft]

/-- Spending the random input leaves everything else the same. -/
theorem unchangedExcept_consumeRnd (s : State) : UnchangedExcept [] [.random] s s.consumeRnd := by
  refine ⟨fun r _ => s.reg_consumeRnd r, fun p hp => ?_, s.consumeRnd_cfg⟩
  cases p with
  | random => exact absurd (List.mem_singleton_self _) hp
  | _ => simp [Part.Same]

theorem unchangedExcept_consumeRnd_setReg_advance (s : State) (x : Reg) (b : Byte) :
    UnchangedExcept [x] [.random] s (s.consumeRnd.setReg x b).advance :=
  ((unchangedExcept_consumeRnd s).mono (by simp) (by simp)).trans
    ((unchangedExcept_setReg_advance s.consumeRnd x b).mono (by simp) (by simp))

/-- Settles O31: the byte is the step's random input, which is the head of the injected bytes where there is one. -/
theorem randMaskMasksTheRandomByte : Obligations.RandMaskMasksTheRandomByte := by
  intro x nn s
  refine ⟨_, s.rnd, exec_randMask x nn s, reg_setReg_advance_self .., fun b rest hrnd => ?injected, ?pc,
    unchangedExcept_consumeRnd_setReg_advance ..⟩
  case injected =>
    obtain ⟨hhead, hrest⟩ := consumeRnd_injected hrnd
    exact ⟨hhead, by rw [State.advance_rndIn, State.setReg_rndIn, hrest, State.setRnd_rndIn]⟩
  case pc => rw [setReg_advance_pc, State.consumeRnd_pc]

theorem unchangedExcept_setIndex_setFlag_advance (s : State) (w : Word) (f : Bool) :
    UnchangedExcept [15] [.index] s ((s.setIndex w).setFlag f).advance :=
  (((unchangedExcept_setIndex s w).mono (by simp) (by simp)).trans
    ((unchangedExcept_setFlag (s.setIndex w) f).mono (by simp) (by simp))).setPc _

theorem reg_setFlag_advance_flag (s : State) (f : Bool) : (s.setFlag f).advance.reg 15 = if f then 1 else 0 :=
  reg_setReg_advance_self s 15 _

/-- Settles O33: the word sum is the sum modulo 65536, and the flag compares that word. -/
theorem addIndexSumAndFlag : Obligations.AddIndexSumAndFlag := by
  intro x s
  refine ⟨_, exec_addIndex x s, ?sum, ?flag, rfl, unchangedExcept_setIndex_setFlag_advance ..⟩
  case sum => exact index_add_zextByte_toNat s.index (s.reg x)
  case flag => rw [reg_setFlag_advance_flag, indexFlag, flagByte_decide, index_add_zextByte_toNat]

end Sys2Proof.Machine


/-! PROOFS. Stores to memory and loads from it (44_index_memory.md, 20_memory.md). -/

namespace Sys2Proof.Machine

/-! ### What a store does (R36, R56) -/

theorem unchangedExcept_pokeBytes (s : State) (a : Nat) (bs : List Byte) :
    UnchangedExcept [] [.memory] s (s.pokeBytes a bs) := by
  refine ⟨fun r _ => s.reg_pokeBytes a bs r, fun p hp => ?_, s.pokeBytes_cfg a bs⟩
  cases p with
  | memory => exact absurd (List.mem_singleton_self _) hp
  | _ => simp [Part.Same]

theorem unchangedExcept_pokeBytes_advance (s : State) (a : Nat) (bs : List Byte) :
    UnchangedExcept [] [.memory] s (s.pokeBytes a bs).advance :=
  (unchangedExcept_pokeBytes s a bs).setPc _

theorem pokeBytes_advance_pc (s : State) (a : Nat) (bs : List Byte) : (s.pokeBytes a bs).advance.pc = s.pc + 2 := by
  rw [State.advance_pc, State.pokeBytes_pc]

/-- A store inside memory keeps the canonical form. -/
theorem State.MemCanonical.pokeBytes {s : State} (hm : s.MemCanonical) {a : Nat} {bs : List Byte}
    (ha : a + bs.length ≤ 4096) : (s.pokeBytes a bs).MemCanonical :=
  Memory.wf_putBytes ha hm

/-! ### What each instruction answers (R163 to R165) -/

theorem exec_storeBcd (x : Reg) (s : State) : exec (.storeBcd x) s =
    orRaise (memWrite s.dataAddr (bcdDigits (s.reg x)) s) fun t => .next t.advance := rfl

theorem exec_registerDump (x : Reg) (s : State) : exec (.registerDump x) s =
    orRaise (memWrite s.dataAddr (s.regsUpTo x) s) fun t => .next t.advance := rfl

theorem exec_registerLoad (x : Reg) (s : State) : exec (.registerLoad x) s =
    orRaise (memRead s.dataAddr (regCount x) s) fun bs => .next (s.loadRegs bs).advance := rfl

theorem exec_storeBcd_of_inRange {x : Reg} {s : State} (hlow : 0x200 ≤ s.dataAddr) (hhigh : s.dataAddr + 2 ≤ 4095) :
    exec (.storeBcd x) s = .next (s.pokeBytes s.dataAddr (bcdDigits (s.reg x))).advance := by
  have hlast : s.dataAddr + (bcdDigits (s.reg x)).length - 1 ≤ 4095 := by rw [bcdDigits_length]; omega
  rw [exec_storeBcd, memWrite_ok_iff.2 ⟨hlast, hlow, rfl⟩, orRaise_ok]

theorem exec_registerDump_of_inRange {x : Reg} {s : State} (hlow : 0x200 ≤ s.dataAddr)
    (hhigh : s.dataAddr + x.val ≤ 4095) :
    exec (.registerDump x) s = .next (s.pokeBytes s.dataAddr (s.regsUpTo x)).advance := by
  have hlast : s.dataAddr + (s.regsUpTo x).length - 1 ≤ 4095 := by rw [State.length_regsUpTo]; omega
  rw [exec_registerDump, memWrite_ok_iff.2 ⟨hlast, hlow, rfl⟩, orRaise_ok]

/-- The bytes that `register-load x` reads: `[M[I], ..., M[I + x]]`. -/
def State.loadedBytes (s : State) (x : Reg) : List Byte :=
  (List.range (x.val + 1)).map fun k => s.byteAt (s.dataAddr + k)

theorem exec_registerLoad_of_inRange {x : Reg} {s : State} (hhigh : s.dataAddr + x.val ≤ 4095) :
    exec (.registerLoad x) s = .next (s.loadRegs (s.loadedBytes x)).advance := by
  have hlast : regCount x = 0 ∨ s.dataAddr + regCount x - 1 ≤ 4095 := .inr (by rw [regCount]; omega)
  rw [exec_registerLoad, memRead_ok_iff.2 ⟨hlast, rfl⟩, orRaise_ok]
  rfl

/-! ### The digits of a byte (R163) -/

section
variable (v : Byte)

theorem bcdDigits_hundreds_toNat : (bcdDigits v)[0].toNat = v.toNat / 100 := by
  have hv := v.isLt
  change (BitVec.ofNat 8 (v.toNat / 100)).toNat = _
  rw [BitVec.toNat_ofNat]
  omega

theorem bcdDigits_tens_toNat : (bcdDigits v)[1].toNat = v.toNat / 10 % 10 := by
  change (BitVec.ofNat 8 (v.toNat / 10 % 10)).toNat = _
  rw [BitVec.toNat_ofNat]
  omega

theorem bcdDigits_ones_toNat : (bcdDigits v)[2].toNat = v.toNat % 10 := by
  change (BitVec.ofNat 8 (v.toNat % 10)).toNat = _
  rw [BitVec.toNat_ofNat]
  omega

end

/-- Settles O34: each stored digit reads back at its own address. -/
theorem storeBcdWritesThreeDigits : Obligations.StoreBcdWritesThreeDigits := by
  intro x s hm hlow hhigh
  have hread (k : Nat) (hk : k < 3) :
      (s.pokeBytes s.dataAddr (bcdDigits (s.reg x))).byteAt (s.dataAddr + k) = (bcdDigits (s.reg x))[k] :=
    s.byteAt_pokeBytes_inside _ _ hm (by rw [bcdDigits_length]; omega) k (by rwa [bcdDigits_length])
  refine ⟨_, exec_storeBcd_of_inRange hlow hhigh, ?hundreds, ?tens, ?ones, fun a ha => ?outside,
    pokeBytes_advance_pc .., unchangedExcept_pokeBytes_advance ..⟩
  case hundreds => rw [State.byteAt_advance, ← bcdDigits_hundreds_toNat, ← hread 0 (by decide), Nat.add_zero]
  case tens => rw [State.byteAt_advance, hread 1 (by decide), bcdDigits_tens_toNat]
  case ones => rw [State.byteAt_advance, hread 2 (by decide), bcdDigits_ones_toNat]
  case outside => exact s.byteAt_pokeBytes_outside _ _ a ha

/-- After a dump the byte at `I + k` is `V[k]`. -/
theorem byteAt_pokeBytes_regsUpTo {s : State} {x : Reg} (hm : s.MemCanonical) (hhigh : s.dataAddr + x.val ≤ 4095)
    {k : Reg} (hk : k ≤ x) : (s.pokeBytes s.dataAddr (s.regsUpTo x)).byteAt (s.dataAddr + k.val) = s.reg k := by
  have hlen : k.val < (s.regsUpTo x).length := by rw [State.length_regsUpTo]; exact Nat.lt_succ_of_le hk
  rw [s.byteAt_pokeBytes_inside _ _ hm (by rw [State.length_regsUpTo]; omega) k.val hlen, State.getElem_regsUpTo]

/-- Settles O35: each stored register reads back at its own address. -/
theorem registerDumpStoresRegisters : Obligations.RegisterDumpStoresRegisters := by
  intro x s hm hlow hhigh
  refine ⟨_, exec_registerDump_of_inRange hlow hhigh, fun k hk => byteAt_pokeBytes_regsUpTo hm hhigh hk,
    fun a ha => ?outside, pokeBytes_advance_pc .., unchangedExcept_pokeBytes_advance ..⟩
  exact s.byteAt_pokeBytes_outside _ _ a (by rwa [State.length_regsUpTo])

/-- Settles O37: a fetch at `I` reads the first two dumped registers. -/
theorem storedBytesAreFetched : Obligations.StoredBytesAreFetched := by
  intro x s hm hx hlow hhigh heven
  refine ⟨_, exec_registerDump_of_inRange hlow hhigh, ?fetched, pokeBytes_advance_pc ..⟩
  have h0 := byteAt_pokeBytes_regsUpTo hm hhigh (k := 0) (Fin.zero_le x)
  have h1 := byteAt_pokeBytes_regsUpTo hm hhigh (k := 1) hx
  refine fetch_ok_iff.2 ⟨?_, heven, ?_⟩
  · have : s.index.toNat + x.val ≤ 4095 := hhigh
    rw [State.setPc_pc]
    omega
  · exact (congrArg₂ wordOfBytes h0 h1).symm

/-! ### What a register load does (R165) -/

theorem State.length_loadedBytes (s : State) (x : Reg) : (s.loadedBytes x).length = x.val + 1 := by
  rw [State.loadedBytes, List.length_map, List.length_range]

theorem reg_loadRegs_loadedBytes_of_le (s : State) {x k : Reg} (hk : k ≤ x) :
    (s.loadRegs (s.loadedBytes x)).reg k = s.byteAt (s.dataAddr + k.val) := by
  have hlt : k.val < x.val + 1 := Nat.lt_succ_of_le hk
  rw [State.reg_loadRegs, State.loadedBytes]
  simp [hlt]

theorem reg_loadRegs_loadedBytes_of_lt (s : State) {x k : Reg} (hk : x < k) :
    (s.loadRegs (s.loadedBytes x)).reg k = s.reg k := by
  have hlen : (s.loadedBytes x).length ≤ k.val := by rw [State.length_loadedBytes]; exact hk
  rw [State.reg_loadRegs, List.getD_eq_default _ _ hlen]

theorem unchangedExcept_loadRegs_loadedBytes (s : State) (x : Reg) :
    UnchangedExcept (writtenRegs (.registerLoad x)) [] s (s.loadRegs (s.loadedBytes x)) := by
  refine ⟨fun r hr => ?_, fun p _ => ?_, s.loadRegs_cfg _⟩
  · have hlt : x < r := by simpa [writtenRegs] using hr
    exact reg_loadRegs_loadedBytes_of_lt s hlt
  · cases p <;> simp [Part.Same]

theorem loadRegs_advance_pc (s : State) (bs : List Byte) : (s.loadRegs bs).advance.pc = s.pc + 2 := by
  rw [State.advance_pc, State.loadRegs_pc]

/-- Settles O36: each register that the load reaches reads back its byte. -/
theorem registerLoadReadsRegisters : Obligations.RegisterLoadReadsRegisters := by
  intro x s hhigh
  refine ⟨_, exec_registerLoad_of_inRange hhigh, fun k hk => ?loaded, fun k hk => ?kept, loadRegs_advance_pc ..,
    (unchangedExcept_loadRegs_loadedBytes s x).setPc _⟩
  case loaded => rw [State.reg_advance, reg_loadRegs_loadedBytes_of_le s hk]
  case kept => rw [State.reg_advance, reg_loadRegs_loadedBytes_of_lt s hk]

/-! ### The canonical form is unique (log 22) -/

section
variable {font : FontTable}

/-- The first cell of a canonical list reads as something that an unlisted address does not. -/
theorem Memory.read_head_ne_unlisted {c : Host.Cell} {m : Memory} (hm : Memory.wf font (c :: m) = true) :
    Memory.read font (c :: m) c.1 ≠ Memory.unlisted font c.1 := by
  obtain ⟨-, hne, -, -⟩ := Memory.wf_cons_iff.1 hm
  simpa only [Memory.read, if_true] using hne

/-- Every address of a canonical list is at or above its first. -/
theorem Memory.read_of_lt_head {c : Host.Cell} {m : Memory} (hm : Memory.wf font (c :: m) = true) {a : Nat}
    (ha : a < c.1) : Memory.read font (c :: m) a = Memory.unlisted font a := by
  obtain ⟨-, -, hlt, -⟩ := Memory.wf_cons_iff.1 hm
  refine Memory.read_of_below fun d hd => ?_
  rcases List.mem_cons.1 hd with rfl | hd
  · exact ha
  · exact ha.trans (hlt d hd)

/-- Reading past the first cell of a canonical list is reading its tail. -/
theorem Memory.read_tail {c : Host.Cell} {m : Memory} (hm : Memory.wf font (c :: m) = true) (a : Nat) :
    Memory.read font m a = if a = c.1 then Memory.unlisted font a else Memory.read font (c :: m) a := by
  obtain ⟨-, -, hlt, -⟩ := Memory.wf_cons_iff.1 hm
  split
  · next ha => exact Memory.read_of_below (ha ▸ hlt)
  · next ha => rw [Memory.read, if_neg (Ne.symm ha)]

/-- Two canonical lists that read the same begin at the same address. -/
theorem Memory.not_head_lt_head {c c' : Host.Cell} {m m' : Memory} (hm : Memory.wf font (c :: m) = true)
    (hm' : Memory.wf font (c' :: m') = true) (h : ∀ a, Memory.read font (c :: m) a = Memory.read font (c' :: m') a) :
    ¬c.1 < c'.1 := fun hlt =>
  Memory.read_head_ne_unlisted hm ((h c.1).trans (Memory.read_of_lt_head hm' hlt))

theorem Memory.eq_of_read_eq {m m' : Memory} (hm : Memory.wf font m = true) (hm' : Memory.wf font m' = true)
    (h : ∀ a, Memory.read font m a = Memory.read font m' a) : m = m' := by
  induction m generalizing m' with
  | nil =>
    cases m' with
    | nil => rfl
    | cons c' m' => exact absurd (h c'.1).symm (Memory.read_head_ne_unlisted hm')
  | cons c m ih =>
    cases m' with
    | nil => exact absurd (h c.1) (Memory.read_head_ne_unlisted hm)
    | cons c' m' =>
      have haddr : c.1 = c'.1 := le_antisymm (not_lt.1 (Memory.not_head_lt_head hm' hm fun a => (h a).symm))
        (not_lt.1 (Memory.not_head_lt_head hm hm' h))
      have hbyte : c.2 = c'.2 := by simpa [Memory.read, haddr] using h c.1
      obtain ⟨-, -, -, htail⟩ := Memory.wf_cons_iff.1 hm
      obtain ⟨-, -, -, htail'⟩ := Memory.wf_cons_iff.1 hm'
      have hread : m = m' := ih htail htail' fun a => by rw [Memory.read_tail hm, Memory.read_tail hm', haddr, h]
      rw [Prod.ext haddr hbyte, hread]

end

/-- Settles O38: by induction on the two lists, cell by cell. -/
theorem canonicalMemoryIsDeterminedByItsReads : Obligations.CanonicalMemoryIsDeterminedByItsReads :=
  fun _ _ _ hm hm' h => Memory.eq_of_read_eq hm hm' h

end Sys2Proof.Machine


/-! PROOFS. Returns and nested calls (41_flow.md). -/

namespace Sys2Proof.Machine

theorem exec_ret (s : State) : exec .ret s = orRaise (popStack s) fun r => .next (r.2.setPc (r.1 + 2)) := rfl

theorem unchangedExcept_ret (s : State) (sp : Fin 17) (w : Word) :
    UnchangedExcept [] [.stack] s ((s.setStack s.stk sp).setPc w) :=
  (unchangedExcept_setStack s s.stk sp).setPc w

theorem exec_ret_of_sp_succ {s : State} {k : Fin 16} (h : s.sp.val = k.val + 1) :
    exec .ret s = .next ((s.setStack s.stk k.castSucc).setPc (s.stk[k] + 2)) := by
  have hk : s.sp.val - 1 = k.val := by omega
  have hpop : popStack s = .ok (s.stk[k], s.setStack s.stk k.castSucc) :=
    popStack_ok_iff.2 ⟨by omega, by omega, by simp [hk, Fin.castSucc, Fin.castAdd, Fin.castLE]⟩
  rw [exec_ret, hpop, orRaise_ok]

/-- Settles O19: the two cases are the two answers of `popStack`. -/
theorem returnPopsTheLastEntry : Obligations.ReturnPopsTheLastEntry := by
  intro s
  constructor
  · intro k hk
    exact ⟨_, exec_ret_of_sp_succ hk, State.setPc_pc .., rfl, fun _ => rfl, unchangedExcept_ret ..⟩
  · intro hempty
    rw [exec_ret, popStack_error_iff.2 ⟨rfl, hempty⟩, orRaise_error]

/-! ### Running a list of instructions -/

theorem execAll_cons_of_next {i : Instr} {is : List Instr} {s t : State} (h : exec i s = .next t) :
    execAll (i :: is) s = execAll is t := by
  simp only [execAll, h]

theorem execAll_append_of_next {is js : List Instr} {s t : State} (h : execAll is s = .next t) :
    execAll (is ++ js) s = execAll js t := by
  induction is generalizing s with
  | nil => cases h; rfl
  | cons i is ih =>
    rw [execAll] at h
    split at h
    · next u hu => rw [List.cons_append, execAll_cons_of_next hu, ih h]
    · cases h
    · cases h

/-- A call to each target, then as many returns. -/
def nestedCalls (targets : List Addr) : List Instr :=
  targets.map .call ++ List.replicate targets.length .ret

theorem nestedCalls_cons (a : Addr) (as : List Addr) :
    nestedCalls (a :: as) = .call a :: (nestedCalls as ++ [.ret]) := by
  simp [nestedCalls, List.replicate_succ']

/-- Nested calls give the stack back, live entries and depth; unless there was no call, they end after the first. -/
theorem execAll_nestedCalls (targets : List Addr) (s : State) (hroom : s.sp.val + targets.length ≤ 16) :
    ∃ t, execAll (nestedCalls targets) s = .next t ∧ (targets ≠ [] → t.pc = s.pc + 2) ∧ t.sp = s.sp ∧
      (∀ j : Fin 16, j.val < s.sp.val → t.stk[j] = s.stk[j]) ∧ UnchangedExcept [] [.stack] s t := by
  induction targets generalizing s with
  | nil => exact ⟨s, rfl, fun h => absurd rfl h, rfl, fun _ _ => rfl, unchangedExcept_setStack s s.stk s.sp⟩
  | cons a as ih =>
    rw [List.length_cons] at hroom
    obtain ⟨s₁, hcall, -, hsp₁, hstk₁, hframe₁⟩ := (callPushesItsOwnAddress a s).1 (by omega)
    obtain ⟨s₂, hrun, -, hsp₂, hstk₂, hframe₂⟩ := ih s₁ (by omega)
    have hsp : s₂.sp.val = s.sp.val + 1 := by rw [hsp₂, hsp₁]
    have hstk (j : Fin 16) (hj : j.val < s.sp.val + 1) : s₂.stk[j] = if j.val = s.sp.val then s.pc else s.stk[j] :=
      (hstk₂ j (by omega)).trans (hstk₁ j)
    obtain ⟨t, hret, hpc, hspt, hstkt, hframet⟩ :=
      (returnPopsTheLastEntry s₂).1 ⟨s.sp.val, by omega⟩ hsp
    refine ⟨t, ?run, fun _ => ?pc, Fin.ext hspt, fun j hj => ?live, (hframe₁.trans hframe₂).trans hframet⟩
    case run =>
      rw [nestedCalls_cons, execAll_cons_of_next hcall, execAll_append_of_next hrun, execAll_cons_of_next hret]
      rfl
    case pc => rw [hpc, hstk _ (Nat.lt_succ_self _), if_pos rfl]
    case live => rw [hstkt, hstk j (by omega), if_neg (by omega)]

/-- Settles O21: by induction on the list of calls, each return undoing the call it pairs with. -/
theorem nestedCallsReturnInReverse : Obligations.NestedCallsReturnInReverse := by
  intro targets s hne hroom
  obtain ⟨t, hrun, hpc, hsp, hstk, hframe⟩ := execAll_nestedCalls targets s hroom
  exact ⟨t, hrun, hpc hne, hsp, hstk, hframe⟩

end Sys2Proof.Machine

/-! PROOFS. Keys and timers (46_keypad_timers.md). -/

namespace Sys2Proof.Machine

/-! ### The edge query (R186) -/

theorem edge_eq_some_iff {s : State} {k : Reg} : s.edge = some k ↔ s.LowestEdge k := by
  rw [State.edge, List.find?_eq_some_iff_getElem]
  constructor
  · rintro ⟨hk, i, hi, rfl, hlower⟩
    refine ⟨by simpa using hk, fun j hj => ?_⟩
    simpa using hlower j.val (by simpa [Fin.lt_def] using hj)
  · rintro ⟨hk, hlower⟩
    refine ⟨by simpa using hk, k.val, by simp, by simp, fun j hj => ?_⟩
    simpa using hlower ⟨j, by omega⟩ (by simpa [Fin.lt_def] using hj)

theorem edge_eq_none_iff {s : State} : s.edge = none ↔ s.keyCur = s.keyPrev := by
  rw [State.edge, List.find?_eq_none]
  constructor
  · intro h
    refine Vector.ext fun k hk => ?_
    simpa using h ⟨k, hk⟩ (List.mem_finRange _)
  · intro h k _
    simp [h]

/-- Settles O45: `find?` over the keys in order answers the first that differs. -/
theorem edgeIsTheLowestChangedKey : Obligations.EdgeIsTheLowestChangedKey := fun _ =>
  ⟨fun _ => edge_eq_some_iff, edge_eq_none_iff⟩

/-! ### What each instruction answers (R180 to R185) -/

theorem exec_skipKeyDown (x : Reg) (s : State) :
    exec (.skipKeyDown x) s = orRaise (keyDown (s.reg x) s) fun down => .next (s.skipIf down) := rfl

theorem exec_skipKeyUp (x : Reg) (s : State) :
    exec (.skipKeyUp x) s = orRaise (keyDown (s.reg x) s) fun down => .next (s.skipIf !down) := rfl

theorem exec_setDelay (x : Reg) (s : State) : exec (.setDelay x) s = .next (s.setDt (s.reg x)).advance := rfl

theorem exec_setSound (x : Reg) (s : State) : exec (.setSound x) s = .next (s.setSt (s.reg x)).advance := rfl

theorem exec_waitKey_of_edge {x : Reg} {s : State} {k : Reg} (h : s.edge = some k) :
    exec (.waitKey x) s = .next (s.setReg x (BitVec.ofNat 8 k.val)).advance := by
  simp only [exec, execWaitKey, h]

theorem exec_waitKey_of_no_edge {x : Reg} {s : State} (h : s.edge = none) : exec (.waitKey x) s = .next s := by
  simp only [exec, execWaitKey, h]

theorem completedResult_waitKey (x : Reg) (s : State) :
    completedResult (.waitKey x) s = ⟨if s.edge = none then .stalled else .ok, false⟩ := rfl

theorem keyDown_of_lt {s : State} {x k : Reg} (h : (s.reg x).toNat = k.val) :
    keyDown (s.reg x) s = .ok s.keyCur[k] :=
  keyDown_ok_iff.2 ⟨h ▸ k.isLt, by simp [h]⟩

theorem keyDown_of_gt {s : State} {x : Reg} (h : 15 < (s.reg x).toNat) :
    keyDown (s.reg x) s = .error .keyIndexOutOfRange :=
  keyDown_error_iff.2 ⟨rfl, h⟩

/-! ### The obligations -/

/-- Settles O43: the two cases are the two answers of `keyDown`. -/
theorem keySkips : Obligations.KeySkips := by
  intro x s
  refine ⟨fun k hk => ⟨⟨s.skipIf s.keyCur[k], ?down, s.skipIf_pc _, unchangedExcept_skipIf ..⟩,
    ⟨s.skipIf !s.keyCur[k], ?up, ?upPc, unchangedExcept_skipIf ..⟩⟩, fun hbad => ⟨?downFails, ?upFails⟩⟩
  case down => rw [exec_skipKeyDown, keyDown_of_lt hk, orRaise_ok]
  case up => rw [exec_skipKeyUp, keyDown_of_lt hk, orRaise_ok]
  case upPc => rw [State.skipIf_pc]; cases s.keyCur[k] <;> rfl
  case downFails => rw [exec_skipKeyDown, keyDown_of_gt hbad, orRaise_error]
  case upFails => rw [exec_skipKeyUp, keyDown_of_gt hbad, orRaise_error]

/-- Settles O44: the two cases are the two answers of the edge query. -/
theorem waitKeyTakesTheLowestEdgeOrStalls : Obligations.WaitKeyTakesTheLowestEdgeOrStalls := by
  intro x s
  refine ⟨fun k hk => ?edge, fun hagree => ?stall⟩
  case edge =>
    have hedge := edge_eq_some_iff.2 hk
    refine ⟨_, exec_waitKey_of_edge hedge, ?key, setReg_advance_pc .., ?result, unchangedExcept_setReg_advance ..⟩
    case key =>
      have hlt := k.isLt
      rw [reg_setReg_advance_self, BitVec.toNat_ofNat]
      omega
    case result => simp [completedResult_waitKey, hedge]
  case stall =>
    have hnone := edge_eq_none_iff.2 hagree
    exact ⟨exec_waitKey_of_no_edge hnone, by simp [completedResult_waitKey, hnone]⟩

theorem unchangedExcept_setDt (s : State) (b : Byte) : UnchangedExcept [] [.delayTimer] s (s.setDt b) := by
  refine ⟨fun r _ => s.reg_setDt b r, fun p hp => ?_, s.setDt_cfg b⟩
  cases p with
  | delayTimer => exact absurd (List.mem_singleton_self _) hp
  | _ => simp [Part.Same]

theorem unchangedExcept_setSt (s : State) (b : Byte) : UnchangedExcept [] [.soundTimer] s (s.setSt b) := by
  refine ⟨fun r _ => s.reg_setSt b r, fun p hp => ?_, s.setSt_cfg b⟩
  cases p with
  | soundTimer => exact absurd (List.mem_singleton_self _) hp
  | _ => simp [Part.Same]

/-- Settles O47: each answer writes its own timer alone. -/
theorem timersAreSet : Obligations.TimersAreSet := fun x s =>
  ⟨⟨_, exec_setDelay x s, rfl, rfl, (unchangedExcept_setDt s (s.reg x)).setPc _⟩,
    ⟨_, exec_setSound x s, rfl, rfl, (unchangedExcept_setSt s (s.reg x)).setPc _⟩⟩

end Sys2Proof.Machine


/-! PROOFS. Drawing (45_display.md). -/

namespace Sys2Proof.Machine

/-! ### The sprite in memory and the cells it covers (R171, R172) -/

/-- The rows of a sprite of `n` rows at `I`. -/
def State.spriteRows (s : State) (n : Nibble) : List Byte :=
  (List.range n.toNat).map fun r => s.byteAt (s.dataAddr + r)

theorem State.length_spriteRows (s : State) (n : Nibble) : (s.spriteRows n).length = n.toNat := by
  rw [State.spriteRows, List.length_map, List.length_range]

theorem State.getD_spriteRows (s : State) {n : Nibble} {r : Nat} (hr : r < n.toNat) :
    (s.spriteRows n).getD r 0 = s.byteAt (s.dataAddr + r) := by
  simp [State.spriteRows, hr]

theorem eq_wrapX_iff {x : Fin 64} {n : Nat} : x = wrapX n ↔ x.val = n % 64 := Fin.ext_iff

theorem eq_wrapY_iff {y : Fin 32} {n : Nat} : y = wrapY n ↔ y.val = n % 32 := Fin.ext_iff

/-- The cells that plotting the rows reaches are the cells that the sprite covers. -/
theorem rowsCover_spriteRows_iff {s : State} {x y : Reg} {n : Nibble} {cx : Fin 64} {cy : Fin 32} :
    RowsCover (s.reg x).toNat (s.reg y).toNat (s.spriteRows n) 0 cx cy ↔ s.SpriteCovers x y n cx cy := by
  constructor
  · rintro ⟨r, hr, hcy, c, hc, -, -, hbit, hcx⟩
    rw [State.length_spriteRows] at hr
    rw [State.getD_spriteRows s hr] at hbit
    rw [Nat.zero_add] at hcy
    exact ⟨r, hr, c, hc, hbit, eq_wrapX_iff.1 hcx, eq_wrapY_iff.1 hcy⟩
  · rintro ⟨r, hr, c, hc, hbit, hcx, hcy⟩
    refine ⟨r, by rwa [State.length_spriteRows], ?_, c, hc, Nat.zero_le c, by omega, ?_, eq_wrapX_iff.2 hcx⟩
    · rw [Nat.zero_add]; exact eq_wrapY_iff.2 hcy
    · rw [State.getD_spriteRows s hr]; exact hbit

/-- What `draw x,y,n` plots: `exec_draw_of_inRange` ties it to the model. -/
def State.drawnCanvas (s : State) (x y : Reg) (n : Nibble) : Canvas :=
  drawSprite (s.reg x) (s.reg y) (s.spriteRows n) s.fb

theorem State.spriteRows_fit (s : State) (n : Nibble) : 0 + (s.spriteRows n).length ≤ 16 := by
  have hn := n.isLt
  rw [State.length_spriteRows]
  omega

theorem drawnCanvas_cell (s : State) (x y : Reg) (n : Nibble) (cx : Fin 64) (cy : Fin 32) :
    (s.drawnCanvas x y n).fb[cy][cx] = if s.SpriteCovers x y n cx cy then !s.cell cx cy else s.cell cx cy := by
  rw [State.drawnCanvas, drawSprite, plotRows_cell _ _ _ _ _ (s.spriteRows_fit n)]
  simp only [rowsCover_spriteRows_iff]
  split
  · next h => simp [h, State.cell]
  · next h => simp [h, State.cell]

theorem drawnCanvas_hit_iff (s : State) (x y : Reg) (n : Nibble) :
    (s.drawnCanvas x y n).hit = true ↔ ∃ cx cy, s.SpriteCovers x y n cx cy ∧ s.cell cx cy = true := by
  rw [State.drawnCanvas, drawSprite, plotRows_hit _ _ _ _ _ (s.spriteRows_fit n)]
  simp only [rowsCover_spriteRows_iff, Bool.false_eq_true, false_or, State.cell]

/-! ### The state after a draw (R171) -/

/-- The successor of a draw that completes: `exec_draw_of_inRange` ties it to the model. -/
def State.drawn (s : State) (x y : Reg) (n : Nibble) : State :=
  (((s.setFb (s.drawnCanvas x y n).fb).setFlag (s.drawnCanvas x y n).hit).setFbChanged true).advance

theorem exec_draw (x y : Reg) (n : Nibble) (s : State) : exec (.draw x y n) s =
    orRaise (memRead s.dataAddr n.toNat s) fun rows =>
      .next (((s.setFb (drawSprite (s.reg x) (s.reg y) rows s.fb).fb).setFlag
        (drawSprite (s.reg x) (s.reg y) rows s.fb).hit).setFbChanged true).advance := rfl

theorem exec_draw_of_inRange {x y : Reg} {n : Nibble} {s : State}
    (h : n.toNat = 0 ∨ s.dataAddr + n.toNat - 1 ≤ 4095) : exec (.draw x y n) s = .next (s.drawn x y n) := by
  have hread : memRead s.dataAddr n.toNat s = .ok (s.spriteRows n) := memRead_ok_iff.2 ⟨h, rfl⟩
  rw [exec_draw, hread, orRaise_ok]
  rfl

theorem eq_of_next_eq_next {s t : State} (h : (.next s : Result) = .next t) : t = s := by
  injection h with h
  exact h.symm

theorem eq_drawn_of_exec_draw {x y : Reg} {n : Nibble} {s t : State} (h : exec (.draw x y n) s = .next t) :
    t = s.drawn x y n := by
  rw [exec_draw] at h
  obtain ⟨rows, hread, ht⟩ := orRaise_next_iff.1 h
  obtain ⟨hrange, -⟩ := memRead_ok_iff.1 hread
  rw [← exec_draw, exec_draw_of_inRange hrange] at h
  exact eq_of_next_eq_next h

section
variable (s : State) (x y : Reg) (n : Nibble)

theorem drawn_cell (cx : Fin 64) (cy : Fin 32) :
    (s.drawn x y n).cell cx cy = if s.SpriteCovers x y n cx cy then !s.cell cx cy else s.cell cx cy :=
  drawnCanvas_cell s x y n cx cy

theorem drawn_flag : (s.drawn x y n).reg 15 = if (s.drawnCanvas x y n).hit then 1 else 0 := by
  rw [State.drawn, State.reg_advance, State.reg_setFbChanged]
  exact reg_setReg_advance_self _ 15 _

theorem drawn_flag_eq_one_iff :
    (s.drawn x y n).reg 15 = 1 ↔ ∃ cx cy, s.SpriteCovers x y n cx cy ∧ s.cell cx cy = true := by
  rw [drawn_flag, ← drawnCanvas_hit_iff]
  cases (s.drawnCanvas x y n).hit <;> decide

theorem drawn_flag_eq_zero_of_no_collision (h : ∀ cx cy, s.SpriteCovers x y n cx cy → s.cell cx cy = false) :
    (s.drawn x y n).reg 15 = 0 := by
  have hmiss : ¬(s.drawnCanvas x y n).hit = true := by
    rw [drawnCanvas_hit_iff]
    rintro ⟨cx, cy, hcov, hcell⟩
    simp [h cx cy hcov] at hcell
  rw [drawn_flag, if_neg hmiss]

theorem drawn_fbChanged : (s.drawn x y n).fbChanged = true := by
  rw [State.drawn, State.advance_fbChanged, State.setFbChanged_fbChanged]

theorem drawn_pc : (s.drawn x y n).pc = s.pc + 2 := by
  rw [State.drawn, State.advance_pc, State.setFbChanged_pc, State.setFlag_pc, State.setFb_pc]

theorem unchangedExcept_drawn : UnchangedExcept [15] [.cells, .fbChanged] s (s.drawn x y n) := by
  have hfb := unchangedExcept_setFb_setFbChanged s (s.drawnCanvas x y n).fb true
  have hflag := unchangedExcept_setFlag ((s.setFb (s.drawnCanvas x y n).fb).setFbChanged true) (s.drawnCanvas x y n).hit
  exact ((hfb.mono (by simp) (by simp)).trans (hflag.mono (by simp) (by simp))).setPc (s.pc + 2)

end

/-! ### The obligations -/

/-- Settles O40: what plotting the rows does to a cell and to the collision mark, read off the state after the draw. -/
theorem drawFlipsTheCoveredCells : Obligations.DrawFlipsTheCoveredCells := fun x y n s hrange =>
  ⟨s.drawn x y n, exec_draw_of_inRange hrange, drawn_cell s x y n, (drawn_flag_eq_one_iff s x y n).2,
    drawn_flag_eq_zero_of_no_collision s x y n, drawn_fbChanged s x y n, rfl, drawn_pc s x y n,
    unchangedExcept_drawn s x y n⟩

/-- A sprite of no rows covers no cell. -/
theorem not_spriteCovers_zero (s : State) (x y : Reg) (cx : Fin 64) (cy : Fin 32) : ¬s.SpriteCovers x y 0 cx cy := by
  rintro ⟨r, hr, -⟩
  exact absurd hr (Nat.not_lt_zero r)

/-- Settles O41: no cell is covered, so none flips and none collides. -/
theorem drawOfNoRowsOnlyClearsTheFlag : Obligations.DrawOfNoRowsOnlyClearsTheFlag := by
  intro x y s
  obtain ⟨hregs, hparts, hcfg⟩ := unchangedExcept_drawn s x y 0
  refine ⟨s.drawn x y 0, exec_draw_of_inRange (.inl rfl), drawn_flag_eq_zero_of_no_collision s x y 0 ?miss,
    drawn_fbChanged .., drawn_pc .., hregs, fun p hp => ?parts, hcfg⟩
  case miss => exact fun cx cy h => (not_spriteCovers_zero s x y cx cy h).elim
  case parts =>
    by_cases hcells : p = .cells
    · subst hcells
      exact fun cx cy => (drawn_cell ..).trans (if_neg (not_spriteCovers_zero s x y cx cy))
    · exact hparts p (by simpa [hcells] using hp)

/-- A draw that keeps `V[x]` and `V[y]` leaves the same cells covered. -/
theorem spriteCovers_drawn_iff {s : State} {x y : Reg} {n : Nibble} (hx : (s.drawn x y n).reg x = s.reg x)
    (hy : (s.drawn x y n).reg y = s.reg y) (cx : Fin 64) (cy : Fin 32) :
    (s.drawn x y n).SpriteCovers x y n cx cy ↔ s.SpriteCovers x y n cx cy := by
  obtain ⟨-, hparts, -⟩ := unchangedExcept_drawn s x y n
  have hindex : (s.drawn x y n).index = s.index := hparts .index (by simp)
  have hmem : ∀ a, (s.drawn x y n).byteAt a = s.byteAt a := hparts .memory (by simp)
  simp only [State.SpriteCovers, State.dataAddr, hx, hy, hindex, hmem]

/-- Settles O42: the second draw flips the same cells back, and collides on those that were 0 before the first. -/
theorem drawTwiceRestores : Obligations.DrawTwiceRestores := by
  intro x y n s t u hst hx hy htu
  obtain rfl := eq_drawn_of_exec_draw hst
  obtain rfl := eq_drawn_of_exec_draw htu
  constructor
  · intro cx cy
    rw [drawn_cell, drawn_cell]
    simp only [spriteCovers_drawn_iff hx hy]
    split <;> simp
  · rw [drawn_flag_eq_one_iff]
    simp only [spriteCovers_drawn_iff hx hy]
    refine exists_congr fun cx => exists_congr fun cy => and_congr_right fun hcov => ?_
    rw [drawn_cell, if_pos hcov, Bool.not_eq_true']

end Sys2Proof.Machine


/-! PROOFS. Every instruction: its error, its `pc` and its frame (10_state.md, 40_step_cycle.md, 60_exceptions.md). -/

namespace Sys2Proof.Machine

/-! ### Errors (R201, R211) -/

theorem next_ne_fault {s : State} {f : Fault} : (.next s : Result) ≠ .fault f := nofun

theorem next_ne_refused {s : State} {e : Refusal} : (.next s : Result) ≠ .refused e := nofun

/-- After a checked access that passes, an instruction completes: its check is the one way it can fail. -/
theorem orRaise_next_eq_fault_iff {α : Type} {r : Except Fault α} {g : α → State} {f : Fault} :
    (orRaise r fun a => .next (g a)) = .fault f ↔ r = .error f := by
  simp [orRaise_fault_iff]

theorem orRaise_next_ne_refused {α : Type} {r : Except Fault α} {g : α → State} {e : Refusal} :
    (orRaise r fun a => .next (g a)) ≠ .refused e := by
  simp [orRaise_refused_iff]

/-- The error of a load of at least one byte, in the form of the error table. -/
theorem memRead_succ_error_iff {a k : Nat} {s : State} {f : Fault} :
    memRead a (k + 1) s = .error f ↔ f = .addressOutOfRange ∧ 4095 < a + k := by
  rw [memRead_error_iff]
  exact and_congr_right fun _ => by omega

/-- The errors of a store, in the form of the error table: a range that starts below 0x200 does not end above 4095. -/
theorem memWrite_short_error_iff {a k : Nat} {bs : List Byte} {s : State} {f : Fault} (hlen : bs.length = k + 1)
    (hk : k < 16) : memWrite a bs s = .error f ↔
      (f = .addressOutOfRange ∧ 4095 < a + k) ∨ (f = .writeProtected ∧ a < 0x200) := by
  rw [memWrite_error_iff, hlen]
  exact or_congr (and_congr_right fun _ => by omega) (and_congr_right fun _ => by omega)

theorem exec_fault_iff (i : Instr) (s : State) (f : Fault) : exec i s = .fault f ↔ ErrorCondition i s f := by
  cases i with
  | call nnn => rw [exec_call, orRaise_next_eq_fault_iff]; exact pushStack_error_iff
  | ret => rw [exec_ret, orRaise_next_eq_fault_iff]; exact popStack_error_iff
  | draw x y n => rw [exec_draw, orRaise_next_eq_fault_iff]; exact memRead_error_iff
  | registerLoad x => rw [exec_registerLoad, orRaise_next_eq_fault_iff]; exact memRead_succ_error_iff
  | storeBcd x =>
    rw [exec_storeBcd, orRaise_next_eq_fault_iff]
    exact memWrite_short_error_iff (bcdDigits_length _) (by decide)
  | registerDump x =>
    rw [exec_registerDump, orRaise_next_eq_fault_iff]
    exact memWrite_short_error_iff (s.length_regsUpTo x) x.isLt
  | skipKeyDown x => rw [exec_skipKeyDown, orRaise_next_eq_fault_iff]; exact keyDown_error_iff
  | skipKeyUp x => rw [exec_skipKeyUp, orRaise_next_eq_fault_iff]; exact keyDown_error_iff
  | waitKey x =>
    refine iff_of_false (fun h => ?_) id
    cases hedge : s.edge with
    | none => exact next_ne_fault ((exec_waitKey_of_no_edge hedge).symm.trans h)
    | some k => exact next_ne_fault ((exec_waitKey_of_edge hedge).symm.trans h)
  | _ => exact iff_of_false next_ne_fault id

theorem exec_ne_refused (i : Instr) (s : State) (e : Refusal) : exec i s ≠ .refused e := by
  cases i with
  | call | ret | draw | registerLoad | storeBcd | registerDump | skipKeyDown | skipKeyUp =>
    exact orRaise_next_ne_refused
  | waitKey x =>
    intro h
    cases hedge : s.edge with
    | none => exact next_ne_refused ((exec_waitKey_of_no_edge hedge).symm.trans h)
    | some k => exact next_ne_refused ((exec_waitKey_of_edge hedge).symm.trans h)
  | _ => exact next_ne_refused

/-- Settles O10: an instruction fails where its one checked access fails. -/
theorem instructionsFailExactlyByTheErrorTable : Obligations.InstructionsFailExactlyByTheErrorTable := fun i s =>
  ⟨exec_fault_iff i s, exec_ne_refused i s⟩

/-! ### The next state of an instruction with a check -/

theorem exec_call_next {nnn : Addr} {s t : State} (h : exec (.call nnn) s = .next t) :
    ∃ hroom : s.sp.val < 16, t =
      (s.setStack (s.stk.set s.sp.val s.pc) ⟨s.sp.val + 1, Nat.succ_lt_succ hroom⟩).setPc (zextAddr nnn) := by
  obtain ⟨u, hpush, hu⟩ := orRaise_next_iff.1 h
  obtain ⟨hroom, rfl⟩ := pushStack_ok_iff.1 hpush
  exact ⟨hroom, eq_of_next_eq_next hu⟩

theorem exec_ret_next {s t : State} (h : exec .ret s = .next t) :
    ∃ k : Fin 16, s.sp.val = k.val + 1 ∧ t = (s.setStack s.stk k.castSucc).setPc (s.stk[k] + 2) := by
  obtain ⟨r, hpop, -⟩ := orRaise_next_iff.1 h
  obtain ⟨hpos, hlt, -⟩ := popStack_ok_iff.1 hpop
  have hsp : s.sp.val = s.sp.val - 1 + 1 := by omega
  refine ⟨⟨s.sp.val - 1, hlt⟩, hsp, ?_⟩
  rw [exec_ret_of_sp_succ (k := ⟨s.sp.val - 1, hlt⟩) hsp] at h
  exact eq_of_next_eq_next h

/-- A checked store that completes has written inside [0x200, 4096). -/
theorem memWrite_advance_next {a : Nat} {bs : List Byte} {s t : State}
    (h : (orRaise (memWrite a bs s) fun t => .next t.advance) = .next t) :
    0x200 ≤ a ∧ a + bs.length ≤ 4096 ∧ t = (s.pokeBytes a bs).advance := by
  obtain ⟨u, hwrite, hu⟩ := orRaise_next_iff.1 h
  obtain ⟨hlast, hlow, rfl⟩ := memWrite_ok_iff.1 hwrite
  exact ⟨hlow, by omega, eq_of_next_eq_next hu⟩

theorem exec_registerLoad_next {x : Reg} {s t : State} (h : exec (.registerLoad x) s = .next t) :
    t = (s.loadRegs (s.loadedBytes x)).advance := by
  obtain ⟨bs, hread, hbs⟩ := orRaise_next_iff.1 h
  obtain ⟨-, rfl⟩ := memRead_ok_iff.1 hread
  exact eq_of_next_eq_next hbs

/-- A key skip that completes has read the key that `V[x]` numbers. -/
theorem keyDown_skipIf_next {x : Reg} {s t : State} {g : Bool → Bool}
    (h : (orRaise (keyDown (s.reg x) s) fun down => .next (s.skipIf (g down))) = .next t) :
    ∃ hlt : (s.reg x).toNat < 16, t = s.skipIf (g s.keyCur[(s.reg x).toNat]) := by
  obtain ⟨down, hkey, hdown⟩ := orRaise_next_iff.1 h
  obtain ⟨hlt, rfl⟩ := keyDown_ok_iff.1 hkey
  exact ⟨hlt, eq_of_next_eq_next hdown⟩

theorem exec_waitKey_next {x : Reg} {s t : State} (h : exec (.waitKey x) s = .next t) :
    (s.edge = none ∧ t = s) ∨ ∃ k, s.edge = some k ∧ t = (s.setReg x (BitVec.ofNat 8 k.val)).advance := by
  cases hedge : s.edge with
  | none => exact .inl ⟨rfl, eq_of_next_eq_next ((exec_waitKey_of_no_edge hedge).symm.trans h)⟩
  | some k => exact .inr ⟨k, rfl, eq_of_next_eq_next ((exec_waitKey_of_edge hedge).symm.trans h)⟩

/-! ### The program counter (R103) -/

theorem zextAddr_eq_ofNat (nnn : Addr) : zextAddr nnn = BitVec.ofNat 16 nnn.toNat := by
  rw [← zextAddr_toNat, BitVec.ofNat_toNat, BitVec.setWidth_eq]

theorem zextAddr_add_zextByte_eq_ofNat (nnn : Addr) (b : Byte) :
    zextAddr nnn + zextByte b = BitVec.ofNat 16 (nnn.toNat + b.toNat) := by
  rw [← zextAddr_add_zextByte_toNat, BitVec.ofNat_toNat, BitVec.setWidth_eq]

/-- The most recent entry of a stack is the last of its live entries. -/
theorem getLastD_take_stk {s : State} {k : Fin 16} (h : s.sp.val = k.val + 1) :
    (s.stk.toList.take s.sp.val).getLastD 0 = s.stk[k] := by
  have hk : k.val < s.stk.toList.length := by simp
  rw [h, List.take_succ_eq_append_getElem hk, List.getLastD_concat]
  rfl

theorem skipIf_bne_pc_eq_skipTarget (s : State) (a b : Byte) : (s.skipIf (a != b)).pc = skipTarget (a ≠ b) s := by
  rw [State.skipIf_bne_pc, skipTarget, ite_not]

/-- Settles O11: each next state writes `pc` by its row. -/
theorem programCounterFollowsThePolicy : Obligations.ProgramCounterFollowsThePolicy := by
  intro i s t h
  cases i with
  | jump nnn =>
    rw [eq_of_next_eq_next h]
    exact zextAddr_eq_ofNat nnn
  | call nnn =>
    obtain ⟨-, rfl⟩ := exec_call_next h
    exact zextAddr_eq_ofNat nnn
  | jumpOffset nnn =>
    rw [eq_of_next_eq_next h]
    exact zextAddr_add_zextByte_eq_ofNat nnn (s.reg 0)
  | ret =>
    obtain ⟨k, hk, rfl⟩ := exec_ret_next h
    rw [State.setPc_pc, pcPolicy, getLastD_take_stk hk]
  | skipEqImm | skipEqReg =>
    rw [eq_of_next_eq_next h]
    exact State.skipIf_beq_pc ..
  | skipNeqImm | skipNeqReg =>
    rw [eq_of_next_eq_next h]
    exact skipIf_bne_pc_eq_skipTarget ..
  | skipKeyDown x =>
    obtain ⟨hlt, rfl⟩ := keyDown_skipIf_next (g := id) h
    simp [pcPolicy, skipTarget, hlt]
  | skipKeyUp x =>
    obtain ⟨hlt, rfl⟩ := keyDown_skipIf_next (g := not) h
    simp [pcPolicy, skipTarget, hlt]
  | waitKey x =>
    obtain ⟨hedge, rfl⟩ | ⟨k, hedge, rfl⟩ := exec_waitKey_next h
    · rw [pcPolicy, if_pos (edge_eq_none_iff.1 hedge)]
    · have hne : s.keyCur ≠ s.keyPrev := fun heq => by simp [edge_eq_none_iff.2 heq] at hedge
      rw [pcPolicy, if_neg hne, setReg_advance_pc]
  | draw x y n => rw [eq_drawn_of_exec_draw h, drawn_pc]; rfl
  | storeBcd x | registerDump x =>
    obtain ⟨-, -, rfl⟩ := memWrite_advance_next h
    exact pokeBytes_advance_pc ..
  | registerLoad x => rw [exec_registerLoad_next h, loadRegs_advance_pc]; rfl
  | randMask x nn =>
    rw [eq_of_next_eq_next h, State.advance_pc, State.setReg_pc, State.consumeRnd_pc]
    rfl
  | _ => rw [eq_of_next_eq_next h]; rfl

/-! ### The frame (R36) -/

theorem unchangedExcept_refl (s : State) : UnchangedExcept [] [] s s :=
  unchangedExcept_setPc s s.pc

/-- Settles O12: each next state is updates whose frames name no more than R36 does. -/
theorem onlyTheNamedStateIsWritten : Obligations.OnlyTheNamedStateIsWritten := by
  intro i s t h
  cases i with
  | setImm | addImm | setReg | orReg | andReg | xorReg | loadDelay =>
    rw [eq_of_next_eq_next h]
    exact unchangedExcept_setReg_advance ..
  | addReg | subReg | shiftRight | subnReg | shiftLeft =>
    rw [eq_of_next_eq_next h]
    exact unchangedExcept_setRegThenFlag_advance ..
  | skipEqImm | skipNeqImm | skipEqReg | skipNeqReg =>
    rw [eq_of_next_eq_next h]
    exact unchangedExcept_skipIf ..
  | jump | jumpOffset =>
    rw [eq_of_next_eq_next h]
    exact unchangedExcept_setPc ..
  | setIndex | fontAddress =>
    rw [eq_of_next_eq_next h]
    exact unchangedExcept_setIndex_advance ..
  | addIndex x =>
    rw [eq_of_next_eq_next h]
    exact unchangedExcept_setIndex_setFlag_advance ..
  | randMask x nn =>
    rw [eq_of_next_eq_next h]
    exact unchangedExcept_consumeRnd_setReg_advance ..
  | clearScreen =>
    rw [eq_of_next_eq_next h]
    exact unchangedExcept_cleared s
  | setDelay x =>
    rw [eq_of_next_eq_next h]
    exact (unchangedExcept_setDt s _).setPc _
  | setSound x =>
    rw [eq_of_next_eq_next h]
    exact (unchangedExcept_setSt s _).setPc _
  | draw x y n =>
    rw [eq_drawn_of_exec_draw h]
    exact unchangedExcept_drawn s x y n
  | registerLoad x =>
    rw [exec_registerLoad_next h]
    exact (unchangedExcept_loadRegs_loadedBytes s x).setPc _
  | storeBcd | registerDump =>
    obtain ⟨-, -, rfl⟩ := memWrite_advance_next h
    exact unchangedExcept_pokeBytes_advance ..
  | call nnn =>
    obtain ⟨-, rfl⟩ := exec_call_next h
    exact (unchangedExcept_setStack s _ _).setPc _
  | ret =>
    obtain ⟨k, -, rfl⟩ := exec_ret_next h
    exact unchangedExcept_ret ..
  | skipKeyDown x =>
    obtain ⟨-, rfl⟩ := keyDown_skipIf_next (g := id) h
    exact unchangedExcept_skipIf ..
  | skipKeyUp x =>
    obtain ⟨-, rfl⟩ := keyDown_skipIf_next (g := not) h
    exact unchangedExcept_skipIf ..
  | waitKey x =>
    obtain ⟨-, rfl⟩ | ⟨k, -, rfl⟩ := exec_waitKey_next h
    · exact (unchangedExcept_refl t).mono (by simp) (by simp)
    · exact unchangedExcept_setReg_advance ..

end Sys2Proof.Machine


/-! PROOFS. What a step does and reports (40_step_cycle.md, 60_exceptions.md). -/

namespace Sys2Proof.Machine

/-! ### The instruction at `pc` (R52, R85, R100) -/

theorem decodeBytes_pair_ok_iff {hi lo : Byte} {i : Instr} :
    decodeBytes [hi, lo] = .ok (i, []) ↔ decodeWord (wordOfBytes hi lo) = .ok i := by
  rw [decodeBytes]
  cases decodeWord (wordOfBytes hi lo) <;> simp [Except.map]

theorem nextIs_iff {s : State} {i : Instr} : s.NextIs i ↔ decodeWord (s.wordAt s.pc.toNat) = .ok i :=
  decodeBytes_pair_ok_iff

/-- Two bytes have one meaning. -/
theorem nextIs_iff_eq {s : State} {i j : Instr} (hi : s.NextIs i) : s.NextIs j ↔ i = j := by
  rw [nextIs_iff, nextIs_iff.1 hi, Except.ok.injEq]

theorem step_of_nextIs {s : State} {i : Instr} (hpc : s.Fetchable) (hi : s.NextIs i) : step s = exec i s := by
  simp only [step, hpc.fetch_eq, nextIs_iff.1 hi]

/-- Settles O6: fetch and decode change nothing. -/
theorem stepRunsTheDecodedInstruction : Obligations.StepRunsTheDecodedInstruction := fun _ _ => step_of_nextIs

theorem step_of_fetch_error {s : State} {f : Fault} (h : fetch s = .error f) : step s = .fault f := by
  simp only [step, h, raise]

theorem stepResult_of_fetch_error {s : State} {f : Fault} (h : fetch s = .error f) :
    stepResult s = ⟨.fatal f, false⟩ := by
  simp only [stepResult, h]

theorem stepResult_of_exec_fault {s : State} {i : Instr} {f : Fault} (hpc : s.Fetchable) (hi : s.NextIs i)
    (h : exec i s = .fault f) : stepResult s = ⟨.fatal f, false⟩ := by
  simp only [stepResult, hpc.fetch_eq, nextIs_iff.1 hi, h]

theorem stepResult_of_exec_next {s t : State} {i : Instr} (hpc : s.Fetchable) (hi : s.NextIs i)
    (h : exec i s = .next t) : stepResult s = completedResult i s := by
  simp only [stepResult, hpc.fetch_eq, nextIs_iff.1 hi, h]

/-! ### Fetch errors (R101) -/

/-- No instruction raises a fetch error. -/
theorem ne_fetch_error_of_errorCondition {i : Instr} {s : State} {f : Fault} (h : ErrorCondition i s f) :
    f ≠ .fetchOutOfRange ∧ f ≠ .fetchMisaligned := by
  cases i with
  | call | ret | draw | registerLoad | skipKeyDown | skipKeyUp =>
    obtain ⟨rfl, -⟩ := h
    decide
  | storeBcd | registerDump => obtain ⟨rfl, -⟩ | ⟨rfl, -⟩ := h <;> decide
  | _ => exact h.elim

/-- So a step that faults with one has failed to fetch. -/
theorem step_fault_iff_fetch_error {s : State} {f : Fault} (hf : f = .fetchOutOfRange ∨ f = .fetchMisaligned) :
    step s = .fault f ↔ fetch s = .error f := by
  refine ⟨fun h => ?_, step_of_fetch_error⟩
  obtain hfetch | ⟨-, i, -, hexec⟩ := step_fault_cases h
  · exact hfetch
  · obtain ⟨hrange, halign⟩ := ne_fetch_error_of_errorCondition ((exec_fault_iff i s f).1 hexec)
    exact (hf.elim hrange halign).elim

/-- Settles O8: a fetch error of a step is one of its fetch. -/
theorem fetchErrorsExactlyAtBadPc : Obligations.FetchErrorsExactlyAtBadPc := by
  intro s
  rw [step_fault_iff_fetch_error (.inl rfl), step_fault_iff_fetch_error (.inr rfl), fetch_error_iff, fetch_error_iff]
  simp

/-! ### What a step leaves alone (R100) -/

theorem soundSignal_not_mem_writtenParts (i : Instr) : Part.soundSignal ∉ writtenParts i := by
  cases i <;> simp [writtenParts]

theorem keypad_not_mem_writtenParts (i : Instr) : Part.keypad ∉ writtenParts i := by
  cases i <;> simp [writtenParts]

theorem delayTimer_mem_writtenParts_iff {i : Instr} : Part.delayTimer ∈ writtenParts i ↔ ∃ x, i = .setDelay x := by
  cases i <;> simp [writtenParts]

theorem soundTimer_mem_writtenParts_iff {i : Instr} : Part.soundTimer ∈ writtenParts i ↔ ∃ x, i = .setSound x := by
  cases i <;> simp [writtenParts]

/-- Settles O13: no instruction names the sound signal or the keys in its frame, and one each names a timer. -/
theorem stepLeavesTimersSoundAndKeysAlone : Obligations.StepLeavesTimersSoundAndKeysAlone := by
  intro s t h
  obtain ⟨-, ⟨i, hi, hexec⟩ | ⟨-, rfl⟩⟩ := step_next_cases h
  · obtain ⟨-, hparts, -⟩ := onlyTheNamedStateIsWritten i s t hexec
    obtain ⟨hcur, hprev⟩ : t.keyCur = s.keyCur ∧ t.keyPrev = s.keyPrev :=
      hparts .keypad (keypad_not_mem_writtenParts i)
    refine ⟨hparts .soundSignal (soundSignal_not_mem_writtenParts i), hcur, hprev, fun hno => ?dt, fun hno => ?st⟩
    case dt =>
      refine hparts .delayTimer fun hmem => ?_
      obtain ⟨x, rfl⟩ := delayTimer_mem_writtenParts_iff.1 hmem
      exact hno x (nextIs_iff.2 hi)
    case st =>
      refine hparts .soundTimer fun hmem => ?_
      obtain ⟨x, rfl⟩ := soundTimer_mem_writtenParts_iff.1 hmem
      exact hno x (nextIs_iff.2 hi)
  · exact ⟨rfl, rfl, rfl, fun _ => rfl, fun _ => rfl⟩

/-! ### The result of a step (R104) -/

theorem completedResult_stalled_iff {i : Instr} {s : State} :
    (completedResult i s).status = .stalled ↔ (∃ x, i = .waitKey x) ∧ s.keyCur = s.keyPrev := by
  rw [← edge_eq_none_iff]
  cases i <;> simp [completedResult]

theorem completedResult_changed_iff {i : Instr} {s : State} :
    (completedResult i s).changed = true ↔ i = .clearScreen ∨ ∃ x y n, i = .draw x y n := by
  cases i <;> simp [completedResult]

/-- An instruction that completes reports no error. -/
theorem completedResult_fine (i : Instr) (s : State) :
    (completedResult i s).status = .ok ∨ (completedResult i s).status = .stalled := by
  cases i with
  | waitKey x =>
    rw [completedResult_waitKey]
    by_cases h : s.edge = none <;> simp [h]
  | _ => exact .inl rfl

/-- The two bytes at `pc` are no instruction (R86). -/
abbrev State.NextUnknown (s : State) : Prop :=
  decodeBytes [s.byteAt s.pc.toNat, s.byteAt (s.pc.toNat + 1)] = .error .unknownOpcode

theorem not_nextIs_of_nextUnknown {s : State} (h : s.NextUnknown) (i : Instr) : ¬s.NextIs i := by
  intro hi
  rw [State.NextIs, h] at hi
  cases hi

/-- The four ways a step can go, with what it reports: it fails to fetch, meets an unrecognized word, or runs an
instruction, which fails or completes. -/
theorem step_and_result_cases (s : State) :
    (∃ f, ¬s.Fetchable ∧ step s = .fault f ∧ stepResult s = ⟨.fatal f, false⟩) ∨
    (s.Fetchable ∧ s.NextUnknown ∧ step s = .next s.advance ∧ stepResult s = ⟨.unknownOpcode, false⟩) ∨
    (∃ i f, s.Fetchable ∧ s.NextIs i ∧ ErrorCondition i s f ∧ step s = .fault f ∧
      stepResult s = ⟨.fatal f, false⟩) ∨
    ∃ i t, s.Fetchable ∧ s.NextIs i ∧ exec i s = .next t ∧ step s = .next t ∧ stepResult s = completedResult i s := by
  cases hfetch : fetch s with
  | error f =>
    refine .inl ⟨f, fun hpc => ?_, step_of_fetch_error hfetch, stepResult_of_fetch_error hfetch⟩
    rw [hpc.fetch_eq] at hfetch
    cases hfetch
  | ok op =>
    obtain ⟨hrange, heven, rfl⟩ := fetch_ok_iff.1 hfetch
    have hpc : s.Fetchable := ⟨hrange, heven⟩
    cases hdecode : decodeWord (s.wordAt s.pc.toNat) with
    | error e =>
      cases decodeWord_error hdecode
      exact .inr (.inl ⟨hpc, decodeBytes_pair_error_iff.2 hdecode, step_of_decodeWord_error hfetch hdecode,
        stepResult_of_decodeWord_error hfetch hdecode⟩)
    | ok i =>
      have hi : s.NextIs i := nextIs_iff.2 hdecode
      have hstep := step_of_nextIs hpc hi
      cases hexec : exec i s with
      | next t =>
        exact .inr (.inr (.inr ⟨i, t, hpc, hi, hexec, hstep.trans hexec, stepResult_of_exec_next hpc hi hexec⟩))
      | fault f =>
        exact .inr (.inr (.inl ⟨i, f, hpc, hi, (exec_fault_iff i s f).1 hexec, hstep.trans hexec,
          stepResult_of_exec_fault hpc hi hexec⟩))
      | refused e => exact (exec_ne_refused i s e hexec).elim

theorem stepResult_fatal_iff (s : State) (f : Fault) : (stepResult s).status = .fatal f ↔ step s = .fault f := by
  obtain ⟨f', -, hstep, hres⟩ | ⟨-, -, hstep, hres⟩ | ⟨-, f', -, -, -, hstep, hres⟩ | ⟨i, t, -, -, -, hstep, hres⟩ :=
    step_and_result_cases s
  · simp [hstep, hres]
  · simp [hstep, hres]
  · simp [hstep, hres]
  · obtain hok | hok := completedResult_fine i s <;> simp [hstep, hres, hok]

theorem stepResult_unknownOpcode_iff (s : State) :
    (stepResult s).status = .unknownOpcode ↔ s.Fetchable ∧ s.NextUnknown := by
  obtain ⟨f, hpc, -, hres⟩ | ⟨hpc, hunk, -, hres⟩ | ⟨i, f, -, hi, -, -, hres⟩ | ⟨i, t, -, hi, -, -, hres⟩ :=
    step_and_result_cases s
  · exact iff_of_false (by simp [hres]) fun h => hpc h.1
  · exact iff_of_true (by rw [hres]) ⟨hpc, hunk⟩
  · exact iff_of_false (by simp [hres]) fun h => not_nextIs_of_nextUnknown h.2 i hi
  · have hne : (stepResult s).status ≠ .unknownOpcode := by
      obtain hok | hok := completedResult_fine i s <;> simp [hres, hok]
    exact iff_of_false hne fun h => not_nextIs_of_nextUnknown h.2 i hi

theorem stepResult_stalled_iff (s : State) :
    (stepResult s).status = .stalled ↔ s.Fetchable ∧ (∃ x, s.NextIs (.waitKey x)) ∧ s.keyCur = s.keyPrev := by
  obtain ⟨f, hpc, -, hres⟩ | ⟨-, hunk, -, hres⟩ | ⟨i, f, -, hi, herr, -, hres⟩ | ⟨i, t, hpc, hi, -, -, hres⟩ :=
    step_and_result_cases s
  · exact iff_of_false (by simp [hres]) fun h => hpc h.1
  · refine iff_of_false (by simp [hres]) ?_
    rintro ⟨-, ⟨x, hx⟩, -⟩
    exact not_nextIs_of_nextUnknown hunk _ hx
  · refine iff_of_false (by simp [hres]) ?_
    rintro ⟨-, ⟨x, hx⟩, -⟩
    obtain rfl := (nextIs_iff_eq hi).1 hx
    exact herr
  · simp only [hres, completedResult_stalled_iff, nextIs_iff_eq hi]
    exact (and_iff_right hpc).symm

theorem stepResult_changed_iff (s : State) :
    (stepResult s).changed = true ↔
      s.Fetchable ∧ (s.NextIs .clearScreen ∨ (∃ x y n, s.NextIs (.draw x y n)) ∧ ∃ t, step s = .next t) := by
  obtain ⟨f, hpc, -, hres⟩ | ⟨-, hunk, -, hres⟩ | ⟨i, f, -, hi, herr, hstep, hres⟩ | ⟨i, t, hpc, hi, -, hstep, hres⟩ :=
    step_and_result_cases s
  · exact iff_of_false (by simp [hres]) fun h => hpc h.1
  · refine iff_of_false (by simp [hres]) ?_
    rintro ⟨-, hx | ⟨⟨x, y, n, hx⟩, -⟩⟩ <;> exact not_nextIs_of_nextUnknown hunk _ hx
  · refine iff_of_false (by simp [hres]) ?_
    rintro ⟨-, hx | ⟨-, t, ht⟩⟩
    · obtain rfl := (nextIs_iff_eq hi).1 hx
      exact herr
    · exact next_ne_fault (ht.symm.trans hstep)
  · simp only [hres, completedResult_changed_iff, nextIs_iff_eq hi, and_iff_left (⟨t, hstep⟩ : ∃ t, step s = .next t)]
    exact (and_iff_right hpc).symm

theorem stepResult_of_step_fault {s : State} {f : Fault} (h : step s = .fault f) :
    stepResult s = ⟨.fatal f, false⟩ := by
  obtain ⟨f', -, hstep, hres⟩ | ⟨-, -, hstep, -⟩ | ⟨-, f', -, -, -, hstep, hres⟩ | ⟨i, t, -, -, -, hstep, -⟩ :=
    step_and_result_cases s
  · cases hstep.symm.trans h; exact hres
  · exact (next_ne_fault (hstep.symm.trans h)).elim
  · cases hstep.symm.trans h; exact hres
  · exact (next_ne_fault (hstep.symm.trans h)).elim

/-- Settles O14: each of the four, over the four ways a step can go. -/
theorem stepResultReportsWhatHappened : Obligations.StepResultReportsWhatHappened := fun s =>
  ⟨stepResult_fatal_iff s, stepResult_unknownOpcode_iff s, stepResult_stalled_iff s, stepResult_changed_iff s⟩

/-- A `jump` to the `pc` it stands at. -/
theorem setPc_zextAddr_self {s : State} (hpc : s.pc.toNat ≤ 4094) : s.setPc (zextAddr (s.pc.setWidth 12)) = s := by
  have hself : zextAddr (s.pc.setWidth 12) = s.pc := by
    apply BitVec.eq_of_toNat_eq
    rw [zextAddr_toNat, BitVec.toNat_setWidth]
    omega
  rw [hself]
  rfl

/-- Settles O54: the step runs a jump that writes `pc` with its own value. -/
theorem idleStepChangesNothing : Obligations.IdleStepChangesNothing := by
  rintro s ⟨hpc, hi⟩
  have hexec : exec (.jump (s.pc.setWidth 12)) s = .next s := by rw [exec_jump, setPc_zextAddr_self hpc.1]
  exact ⟨(step_of_nextIs hpc hi).trans hexec, stepResult_of_exec_next hpc hi hexec⟩

/-! ### The random input of a step (R108) -/

/-- An answer with the random input of its state replaced. -/
def resultWithRnd (rndIn : List Byte) (rndCount : Nat) : Result → Result
  | .next t => .next (t.setRnd rndIn rndCount)
  | .fault f => .fault f
  | .refused e => .refused e

theorem orRaise_map {α β : Type} (r : Except Fault α) (g : α → β) (k : β → Result) :
    orRaise (r.map g) k = orRaise r fun a => k (g a) := by
  cases r <;> rfl

section
variable (s : State) (rs : List Byte) (n : Nat)

theorem resultWithRnd_orRaise {α : Type} (r : Except Fault α) (k : α → Result) :
    resultWithRnd rs n (orRaise r k) = orRaise r fun a => resultWithRnd rs n (k a) := by
  cases r <;> rfl

theorem pushStack_setRnd (w : Word) : pushStack w (s.setRnd rs n) = (pushStack w s).map (·.setRnd rs n) := by
  cases h : pushStack w s with
  | ok t =>
    obtain ⟨hroom, rfl⟩ := pushStack_ok_iff.1 h
    exact pushStack_ok_iff.2 ⟨hroom, rfl⟩
  | error f =>
    obtain ⟨rfl, hfull⟩ := pushStack_error_iff.1 h
    exact pushStack_error_iff.2 ⟨rfl, hfull⟩

theorem popStack_setRnd : popStack (s.setRnd rs n) = (popStack s).map fun r => (r.1, r.2.setRnd rs n) := by
  cases h : popStack s with
  | ok r =>
    obtain ⟨hpos, hlt, rfl⟩ := popStack_ok_iff.1 h
    exact popStack_ok_iff.2 ⟨hpos, hlt, rfl⟩
  | error f =>
    obtain ⟨rfl, hempty⟩ := popStack_error_iff.1 h
    exact popStack_error_iff.2 ⟨rfl, hempty⟩

theorem memWrite_setRnd (a : Nat) (bs : List Byte) :
    memWrite a bs (s.setRnd rs n) = (memWrite a bs s).map (·.setRnd rs n) := by
  cases h : memWrite a bs s with
  | ok t =>
    obtain ⟨hhigh, hlow, rfl⟩ := memWrite_ok_iff.1 h
    exact memWrite_ok_iff.2 ⟨hhigh, hlow, rfl⟩
  | error f => exact memWrite_error_iff.2 (memWrite_error_iff.1 h)

/-- An instruction other than `rand-mask` carries the random input through. -/
theorem exec_setRnd {i : Instr} (hi : ∀ x nn, i ≠ .randMask x nn) :
    exec i (s.setRnd rs n) = resultWithRnd rs n (exec i s) := by
  cases i with
  | randMask x nn => exact (hi x nn rfl).elim
  | call nnn => rw [exec_call, exec_call, resultWithRnd_orRaise, pushStack_setRnd, orRaise_map]; rfl
  | ret => rw [exec_ret, exec_ret, resultWithRnd_orRaise, popStack_setRnd, orRaise_map]; rfl
  | storeBcd x => rw [exec_storeBcd, exec_storeBcd, resultWithRnd_orRaise, memWrite_setRnd, orRaise_map]; rfl
  | registerDump x =>
    rw [exec_registerDump, exec_registerDump, resultWithRnd_orRaise, memWrite_setRnd, orRaise_map]
    rfl
  | registerLoad x => rw [exec_registerLoad, exec_registerLoad, resultWithRnd_orRaise]; rfl
  | draw x y m => rw [exec_draw, exec_draw, resultWithRnd_orRaise]; rfl
  | skipKeyDown x => rw [exec_skipKeyDown, exec_skipKeyDown, resultWithRnd_orRaise]; rfl
  | skipKeyUp x => rw [exec_skipKeyUp, exec_skipKeyUp, resultWithRnd_orRaise]; rfl
  | waitKey x =>
    cases hedge : s.edge with
    | none => rw [exec_waitKey_of_no_edge hedge, exec_waitKey_of_no_edge (s := s.setRnd rs n) hedge]; rfl
    | some k => rw [exec_waitKey_of_edge hedge, exec_waitKey_of_edge (s := s.setRnd rs n) hedge]; rfl
  | _ => rfl

theorem completedResult_setRnd (i : Instr) : completedResult i (s.setRnd rs n) = completedResult i s := by
  cases i <;> rfl

variable (hno : s.Fetchable → ∀ x nn, ¬s.NextIs (.randMask x nn))
include hno

/-- Where no `rand-mask` runs, so does the whole step. -/
theorem step_setRnd : step (s.setRnd rs n) = resultWithRnd rs n (step s) := by
  cases hfetch : fetch s with
  | error f =>
    rw [step_of_fetch_error hfetch]
    exact step_of_fetch_error (s := s.setRnd rs n) hfetch
  | ok op =>
    obtain ⟨hrange, heven, rfl⟩ := fetch_ok_iff.1 hfetch
    cases hdecode : decodeWord (s.wordAt s.pc.toNat) with
    | error e =>
      rw [step_of_decodeWord_error hfetch hdecode]
      exact step_of_decodeWord_error (s := s.setRnd rs n) hfetch hdecode
    | ok i =>
      have hpc : s.Fetchable := ⟨hrange, heven⟩
      have hi : s.NextIs i := nextIs_iff.2 hdecode
      have hne : ∀ x nn, i ≠ .randMask x nn := by rintro x nn rfl; exact hno hpc x nn hi
      rw [step_of_nextIs hpc hi, ← exec_setRnd s rs n hne]
      exact step_of_nextIs (s := s.setRnd rs n) hpc hi

/-- And it reports the same. -/
theorem stepResult_setRnd : stepResult (s.setRnd rs n) = stepResult s := by
  have hstep := step_setRnd s rs n hno
  obtain ⟨f, -, hs, hres⟩ | ⟨hpc, hunk, -, hres⟩ | ⟨-, f, -, -, -, hs, hres⟩ | ⟨i, t, hpc, hi, hexec, -, hres⟩ :=
    step_and_result_cases s
  · rw [hs] at hstep
    rw [hres, stepResult_of_step_fault hstep]
  · rw [hres]
    exact stepResult_of_decodeWord_error (s := s.setRnd rs n) hpc.fetch_eq (decodeBytes_pair_error_iff.1 hunk)
  · rw [hs] at hstep
    rw [hres, stepResult_of_step_fault hstep]
  · have hne : ∀ x nn, i ≠ .randMask x nn := by rintro x nn rfl; exact hno hpc x nn hi
    have hexec' : exec i (s.setRnd rs n) = .next (t.setRnd rs n) := by rw [exec_setRnd s rs n hne, hexec]; rfl
    rw [hres, ← completedResult_setRnd s rs n]
    exact stepResult_of_exec_next (s := s.setRnd rs n) hpc hi hexec'

theorem afterStep_setRnd : afterStep (s.setRnd rs n) = (afterStep s).setRnd rs n := by
  unfold afterStep
  rw [step_setRnd s rs n hno]
  cases step s <;> rfl

/-- The host's step is then the machine's, whatever the random byte. -/
theorem stepWith_of_not_randMask (r : Byte) :
    stepWith r s = (stepResult s, (afterStep s).setRnd s.rndIn s.rndCount) := by
  rw [stepWith, stepResult_setRnd s _ _ hno, afterStep_setRnd s _ _ hno]
  rfl

end

/-- A `rand-mask` that is offered a byte spends that byte. -/
theorem exec_randMask_offered (x : Reg) (nn r : Byte) (s : State) :
    exec (.randMask x nn) (s.setRnd (r :: s.rndIn) s.rndCount) = .next (s.setReg x (r &&& nn)).advance := rfl

theorem stepWith_of_randMask {s : State} {x : Reg} {nn : Byte} (hpc : s.Fetchable) (hi : s.NextIs (.randMask x nn))
    (r : Byte) : stepWith r s = (⟨.ok, false⟩, (s.setReg x (r &&& nn)).advance) := by
  have hpc' : (s.setRnd (r :: s.rndIn) s.rndCount).Fetchable := hpc
  have hi' : (s.setRnd (r :: s.rndIn) s.rndCount).NextIs (.randMask x nn) := hi
  have hexec := exec_randMask_offered x nn r s
  have hstep := (step_of_nextIs hpc' hi').trans hexec
  rw [stepWith, stepResult_of_exec_next hpc' hi' hexec, afterStep, hstep]
  rfl

/-- Settles O16: a `rand-mask` writes the offered byte ANDed with `nn`, and nothing else reads the offer. -/
theorem randomInputReachesOnlyRandMask : Obligations.RandomInputReachesOnlyRandMask := by
  intro s r r'
  refine ⟨fun hno => ?_, fun x nn hpc hi => ?_⟩
  · rw [stepWith_of_not_randMask s (fun _ => hno) r, stepWith_of_not_randMask s (fun _ => hno) r']
  · rw [stepWith_of_randMask hpc hi]
    exact ⟨rfl, reg_setReg_advance_self .., setReg_advance_pc .., unchangedExcept_setReg_advance ..⟩

/-- A step that faults runs no `rand-mask`, which cannot fail. -/
theorem not_nextIs_randMask_of_fault {s : State} {f : Fault} (h : step s = .fault f) (hpc : s.Fetchable) (x : Reg)
    (nn : Byte) : ¬s.NextIs (.randMask x nn) := fun hi =>
  next_ne_fault ((step_of_nextIs hpc hi).symm.trans h)

/-- Settles O15: the state after a fault is the state before, and the offered byte is taken back. -/
theorem fatalErrorLeavesTheStateUnchanged : Obligations.FatalErrorLeavesTheStateUnchanged := by
  intro s f rnd h
  have hafter : afterStep s = s := by rw [afterStep, h]
  rw [hostOp, stepWith_of_not_randMask s (not_nextIs_randMask_of_fault h) rnd, stepResult_of_step_fault h, hafter]
  rfl

end Sys2Proof.Machine


/-! PROOFS. The host operations (60_exceptions.md section 4, 70_reset_and_hazards.md section 1). -/

namespace Sys2Proof.Machine

/-! ### Reset (R34, R240) -/

theorem resetWith_atReset (cfg : Config) : (State.resetWith cfg).AtReset := by
  refine ⟨fun r => ?reg, rfl, rfl, rfl, fun j => ?stk, rfl, rfl, fun k => ?cur, fun k => ?prev, fun cx cy => ?cell,
    rfl, rfl, fun a _ => rfl⟩
  all_goals simp [State.resetWith, State.reg, State.cell]

/-- Settles O48: a reset keeps the configuration and the random input, and every other field is at its reset value. -/
theorem resetGivesTheStatedValues : Obligations.ResetGivesTheStatedValues :=
  ⟨resetWith_atReset _, fun s => ⟨resetWith_atReset s.cfg, rfl, rfl⟩⟩

/-! ### Loading a program (R242) -/

theorem hostOp_loadProgram_of_fits {bytes : List Byte} (h : bytes.length ≤ 3584) (s : State) :
    hostOp (.loadProgram bytes) s = (.load .ok, s.pokeBytes 0x200 bytes) := by
  rw [hostOp, loadProgram, if_neg (not_lt.2 h)]

theorem hostOp_loadProgram_of_too_long {bytes : List Byte} (h : 3584 < bytes.length) (s : State) :
    hostOp (.loadProgram bytes) s = (.load .malformedProgram, s) := by
  rw [hostOp, loadProgram, if_pos h]

/-- Settles O49: a load is a store at 0x200, whose last byte lies inside memory. -/
theorem loadedBytesReadBack : Obligations.LoadedBytesReadBack := fun bytes s hm =>
  ⟨fun hfits => ⟨_, hostOp_loadProgram_of_fits hfits s,
      fun k hk => s.byteAt_pokeBytes_inside 0x200 bytes hm (by omega) k hk,
      fun a ha => s.byteAt_pokeBytes_outside 0x200 bytes a ha, s.pokeBytes_pc .., unchangedExcept_pokeBytes ..⟩,
    fun hlong => hostOp_loadProgram_of_too_long hlong s⟩

/-! ### Input samples (R218) -/

theorem hostOp_setInput (keys : Vector Bool 16) (s : State) :
    hostOp (.setInput keys) s = (.nothing, s.setKeys keys s.keyCur) := rfl

theorem unchangedExcept_setKeys (s : State) (cur prev : Vector Bool 16) :
    UnchangedExcept [] [.keypad] s (s.setKeys cur prev) := by
  refine ⟨fun r _ => s.reg_setKeys cur prev r, fun p hp => ?_, s.setKeys_cfg cur prev⟩
  cases p with
  | keypad => exact absurd (List.mem_singleton_self _) hp
  | _ => simp [Part.Same]

/-- Settles O50: there is an edge iff the two vectors differ, and a repeated sample makes them equal. -/
theorem inputSampleShiftsTheKeyVectors : Obligations.InputSampleShiftsTheKeyVectors := fun keys s =>
  ⟨_, hostOp_setInput keys s, rfl, rfl, rfl, unchangedExcept_setKeys .., edge_eq_none_iff, edge_eq_none_iff.2 rfl⟩

/-! ### Ticks (R217, R219) -/

theorem tickDown_toNat (b : Byte) : (tickDown b).toNat = b.toNat - 1 := by
  unfold tickDown
  split
  · next h => rw [h]; rfl
  · next h =>
    have hpos : b.toNat ≠ 0 := fun h0 => h (BitVec.eq_of_toNat_eq h0)
    rw [BitVec.toNat_sub_of_le (by rw [BitVec.le_def]; exact Nat.one_le_iff_ne_zero.2 hpos)]
    rfl

section
variable (s : State)

theorem hostOp_tickTimers : hostOp .tickTimers s = (.nothing, tickTimers s) := rfl

theorem tickTimers_dt_toNat : (tickTimers s).dt.toNat = s.dt.toNat - 1 := tickDown_toNat s.dt

theorem tickTimers_st_toNat : (tickTimers s).st.toNat = s.st.toNat - 1 := tickDown_toNat s.st

theorem tickTimers_snd_iff : (tickTimers s).snd = true ↔ s.st.toNat = 1 := by
  change (s.st == 1) = true ↔ s.st.toNat = 1
  rw [beq_iff_eq, ← BitVec.toNat_inj]
  rfl

theorem unchangedExcept_tickTimers :
    UnchangedExcept [] [.delayTimer, .soundTimer, .soundSignal] s (tickTimers s) := by
  refine ⟨fun r _ => rfl, fun p hp => ?_, rfl⟩
  cases p with
  | delayTimer | soundTimer | soundSignal => simp at hp
  | _ => simp [Part.Same, tickTimers]

end

/-- Settles O51: each timer by `tickDown`, and the signal compares the old `ST` with 1. -/
theorem tickDecrementsTheTimers : Obligations.TickDecrementsTheTimers := fun s =>
  ⟨_, hostOp_tickTimers s, tickTimers_dt_toNat s, tickTimers_st_toNat s, tickTimers_snd_iff s, rfl,
    unchangedExcept_tickTimers s, rfl⟩

/-- Settles O52: by induction on the number of ticks. -/
theorem manyTicksFloorTheDelayTimer : Obligations.ManyTicksFloorTheDelayTimer := by
  intro n
  induction n with
  | zero => exact fun s => rfl
  | succ n ih =>
    intro s
    rw [List.replicate_succ, hostRun, hostOp_tickTimers, ih, tickTimers_dt_toNat]
    omega

/-! ### Snapshots (R220) -/

/-- In a concatenation of pieces of length `w`, piece `i` begins at position `w * i`. -/
theorem getElem?_flatMap_of_length_eq {α β : Type} {f : α → List β} {w : Nat} (hw : ∀ a, (f a).length = w)
    (l : List α) {i j : Nat} (hi : i < l.length) (hj : j < w) : (l.flatMap f)[w * i + j]? = (f l[i])[j]? := by
  induction l generalizing i with
  | nil => simp at hi
  | cons a l ih =>
    rw [List.flatMap_cons]
    cases i with
    | zero => rw [Nat.mul_zero, Nat.zero_add, List.getElem?_append_left (by rw [hw]; exact hj)]; rfl
    | succ i =>
      have hle : (f a).length ≤ w * (i + 1) + j := by rw [hw, Nat.mul_succ]; omega
      have hsub : w * (i + 1) + j - w = w * i + j := by rw [Nat.mul_succ]; omega
      rw [List.getElem?_append_right hle, hw, hsub, ih (Nat.lt_of_succ_lt_succ hi)]
      rfl

theorem snapshotCells_length (s : State) : (snapshotCells s).length = 2048 := by
  simp [snapshotCells, List.length_flatMap]

theorem snapshotCells_getElem? (s : State) (cx : Fin 64) (cy : Fin 32) :
    (snapshotCells s)[64 * cy.val + cx.val]? = some (s.cell cx cy) := by
  have hcy : cy.val < s.fb.toList.length := by simp
  rw [snapshotCells, getElem?_flatMap_of_length_eq (fun row => Vector.length_toList) s.fb.toList hcy cx.isLt]
  simp [State.cell]

theorem unchangedExcept_setFbChanged (s : State) (b : Bool) :
    UnchangedExcept [] [.fbChanged] s (s.setFbChanged b) := by
  refine ⟨fun r _ => s.reg_setFbChanged b r, fun p hp => ?_, s.setFbChanged_cfg b⟩
  cases p with
  | fbChanged => exact absurd (List.mem_singleton_self _) hp
  | _ => simp [Part.Same]

/-- Settles O53: the snapshot is the rows one after the other, 64 cells each. -/
theorem snapshotIsRowMajor : Obligations.SnapshotIsRowMajor := fun s =>
  ⟨snapshotCells s, _, rfl, snapshotCells_length s, snapshotCells_getElem? s, rfl, rfl,
    unchangedExcept_setFbChanged s false⟩

end Sys2Proof.Machine


/-! PROOFS. The invariants of R35 (10_state.md section 11). -/

namespace Sys2Proof.Machine

/-! ### Reset establishes them (R34) -/

theorem inv_resetWith (cfg : Config) : (State.resetWith cfg).Inv :=
  ⟨rfl, fun _ _ => rfl, fun _ hj => absurd hj (Nat.not_lt_zero _), (by decide : (0x200#16).toNat ≤ 0x10FE)⟩

/-- Settles O55: a reset lists no byte and no live entry; the random input that it keeps is in no invariant. -/
theorem resetEstablishesTheInvariant : Obligations.ResetEstablishesTheInvariant :=
  ⟨inv_resetWith _, fun s => inv_resetWith s.cfg⟩

/-! ### What each part of the state must do to keep them -/

/-- The two invariants of memory. -/
def State.MemInv (s : State) : Prop := s.MemCanonical ∧ s.LowMemoryIntact

theorem State.MemInv.of_eq {s t : State} (h : s.MemInv) (hcfg : t.cfg = s.cfg) (hmem : t.mem = s.mem) : t.MemInv := by
  unfold State.MemInv State.MemCanonical State.LowMemoryIntact State.byteAt at *
  rw [hcfg, hmem]
  exact h

/-- A store above the write-protected bytes and inside memory keeps both. -/
theorem State.MemInv.pokeBytes {s : State} (h : s.MemInv) {a : Nat} {bs : List Byte} (hlow : 0x200 ≤ a)
    (hhigh : a + bs.length ≤ 4096) : (s.pokeBytes a bs).MemInv := by
  obtain ⟨hcanonical, hintact⟩ := h
  refine ⟨hcanonical.pokeBytes hhigh, fun d hd => ?_⟩
  rw [s.byteAt_pokeBytes_outside a bs d (by omega)]
  exact hintact d hd

theorem State.LiveStackFetchable.of_same {s t : State} (h : s.LiveStackFetchable) (hstack : Part.stack.Same s t) :
    t.LiveStackFetchable := by
  obtain ⟨hsp, hstk⟩ := hstack
  intro j hj
  rw [hstk j]
  exact h j (hsp ▸ hj)

/-! ### Memory (R53, R56) -/

/-- An instruction that completes leaves the memory list alone, or stores inside [0x200, 4096). -/
theorem exec_mem_cases {i : Instr} {s t : State} (h : exec i s = .next t) :
    t.mem = s.mem ∨ ∃ a bs, 0x200 ≤ a ∧ a + bs.length ≤ 4096 ∧ t.mem = (s.pokeBytes a bs).mem := by
  cases i with
  | storeBcd | registerDump =>
    obtain ⟨hlow, hhigh, rfl⟩ := memWrite_advance_next h
    exact .inr ⟨_, _, hlow, hhigh, rfl⟩
  | call nnn =>
    obtain ⟨-, rfl⟩ := exec_call_next h
    exact .inl rfl
  | ret =>
    obtain ⟨k, -, rfl⟩ := exec_ret_next h
    exact .inl rfl
  | draw x y n =>
    rw [eq_drawn_of_exec_draw h]
    exact .inl rfl
  | registerLoad x =>
    rw [exec_registerLoad_next h]
    exact .inl rfl
  | skipKeyDown x =>
    obtain ⟨-, rfl⟩ := keyDown_skipIf_next (g := id) h
    exact .inl rfl
  | skipKeyUp x =>
    obtain ⟨-, rfl⟩ := keyDown_skipIf_next (g := not) h
    exact .inl rfl
  | waitKey x => obtain ⟨-, rfl⟩ | ⟨k, -, rfl⟩ := exec_waitKey_next h <;> exact .inl rfl
  | randMask x nn =>
    rw [eq_of_next_eq_next h, State.advance_mem, State.setReg_mem, State.consumeRnd_mem]
    exact .inl rfl
  | _ =>
    rw [eq_of_next_eq_next h]
    exact .inl rfl

theorem exec_keeps_memInv {i : Instr} {s t : State} (hinv : s.MemInv) (h : exec i s = .next t) : t.MemInv := by
  obtain ⟨-, -, hcfg⟩ := onlyTheNamedStateIsWritten i s t h
  obtain hmem | ⟨a, bs, hlow, hhigh, hmem⟩ := exec_mem_cases h
  · exact hinv.of_eq hcfg hmem
  · exact (hinv.pokeBytes hlow hhigh).of_eq hcfg hmem

/-! ### The call stack (R120, R122) -/

theorem stack_mem_writtenParts_iff {i : Instr} : Part.stack ∈ writtenParts i ↔ i = .ret ∨ ∃ nnn, i = .call nnn := by
  cases i <;> simp [writtenParts]

/-- A `call` pushes the address it was fetched from. -/
theorem exec_call_keeps_liveStack {nnn : Addr} {s t : State} (hpc : s.Fetchable) (hlive : s.LiveStackFetchable)
    (h : exec (.call nnn) s = .next t) : t.LiveStackFetchable := by
  obtain ⟨hroom, -⟩ := exec_call_next h
  obtain ⟨u, hu, -, hsp, hstk, -⟩ := (callPushesItsOwnAddress nnn s).1 hroom
  obtain rfl := eq_of_next_eq_next (hu.symm.trans h)
  intro j hj
  rw [hstk j]
  split
  · exact hpc
  · exact hlive j (by omega)

theorem exec_ret_keeps_liveStack {s t : State} (hlive : s.LiveStackFetchable) (h : exec .ret s = .next t) :
    t.LiveStackFetchable := by
  obtain ⟨k, hk, -⟩ := exec_ret_next h
  obtain ⟨u, hu, -, hsp, hstk, -⟩ := (returnPopsTheLastEntry s).1 k hk
  obtain rfl := eq_of_next_eq_next (hu.symm.trans h)
  intro j hj
  rw [hstk j]
  exact hlive j (by omega)

theorem exec_keeps_liveStack {i : Instr} {s t : State} (hpc : s.Fetchable) (hlive : s.LiveStackFetchable)
    (h : exec i s = .next t) : t.LiveStackFetchable := by
  by_cases hstack : Part.stack ∈ writtenParts i
  · obtain rfl | ⟨nnn, rfl⟩ := stack_mem_writtenParts_iff.1 hstack
    · exact exec_ret_keeps_liveStack hlive h
    · exact exec_call_keeps_liveStack hpc hlive h
  · obtain ⟨-, hparts, -⟩ := onlyTheNamedStateIsWritten i s t h
    exact hlive.of_same (hparts .stack hstack)

/-! ### The program counter (R103) -/

/-- The start of an instruction plus 2 or 4 does not wrap. -/
theorem add_bounded {w d : Word} (hw : w.toNat ≤ 4094) (hd : d.toNat ≤ 4) : (w + d).toNat ≤ 0x10FE := by
  rw [BitVec.toNat_add]
  omega

section
variable {s : State} (hpc : s.Fetchable)
include hpc

theorem pc_add_two_bounded : (s.pc + 2).toNat ≤ 0x10FE := add_bounded hpc.1 (by decide)

theorem skipTarget_bounded (c : Prop) [Decidable c] : (skipTarget c s).toNat ≤ 0x10FE := by
  unfold skipTarget
  split <;> exact add_bounded hpc.1 (by decide)

/-- The highest next `pc` is that of a `jump-offset`, `0xFFF + 0xFF`. -/
theorem exec_keeps_pcBounded {i : Instr} {t : State} (hlive : s.LiveStackFetchable) (h : exec i s = .next t) :
    t.PcBounded := by
  unfold State.PcBounded
  rw [programCounterFollowsThePolicy i s t h]
  cases i with
  | jump nnn | call nnn =>
    have hnnn := nnn.isLt
    rw [pcPolicy, BitVec.toNat_ofNat]
    omega
  | jumpOffset nnn =>
    have hnnn := nnn.isLt
    have hv := (s.reg 0).isLt
    rw [pcPolicy, BitVec.toNat_ofNat]
    omega
  | ret =>
    obtain ⟨k, hk, -⟩ := exec_ret_next h
    obtain ⟨hrange, -⟩ := hlive k (by omega)
    rw [pcPolicy, getLastD_take_stk hk]
    exact add_bounded hrange (by decide)
  | skipEqImm | skipNeqImm | skipEqReg | skipNeqReg | skipKeyDown | skipKeyUp => exact skipTarget_bounded hpc _
  | waitKey x =>
    rw [pcPolicy]
    split
    · exact hpc.1.trans (by decide)
    · exact pc_add_two_bounded hpc
  | _ => exact pc_add_two_bounded hpc

end

/-! ### A step keeps them -/

theorem step_keeps_inv {s t : State} (hinv : s.Inv) (h : step s = .next t) : t.Inv := by
  obtain ⟨hcanonical, hintact, hlive, -⟩ := hinv
  obtain ⟨hpc, ⟨i, -, hexec⟩ | ⟨-, rfl⟩⟩ := step_next_cases h
  · obtain ⟨hcanonical', hintact'⟩ := exec_keeps_memInv ⟨hcanonical, hintact⟩ hexec
    exact ⟨hcanonical', hintact', exec_keeps_liveStack hpc hlive hexec, exec_keeps_pcBounded hpc hlive hexec⟩
  · exact ⟨hcanonical, hintact, hlive, pc_add_two_bounded hpc⟩

/-- Settles O56: memory, stack and `pc` each keep their own, whichever instruction runs. -/
theorem stepKeepsTheInvariant : Obligations.StepKeepsTheInvariant := fun _ _ => step_keeps_inv

theorem step_keeps_cfg {s t : State} (h : step s = .next t) : t.cfg = s.cfg := by
  obtain ⟨-, ⟨i, -, hexec⟩ | ⟨-, rfl⟩⟩ := step_next_cases h
  · obtain ⟨-, -, hcfg⟩ := onlyTheNamedStateIsWritten i s t hexec
    exact hcfg
  · rfl

/-! ### So does every host operation (R213) -/

/-- A step leaves the state before it or a next state. -/
theorem afterStep_cases (s : State) : afterStep s = s ∨ step s = .next (afterStep s) := by
  unfold afterStep
  cases step s with
  | next t => exact .inr rfl
  | fault f => exact .inl rfl
  | refused e => exact .inl rfl

theorem afterStep_keeps_inv {s : State} (hinv : s.Inv) : (afterStep s).Inv := by
  obtain h | h := afterStep_cases s
  · rw [h]; exact hinv
  · exact step_keeps_inv hinv h

theorem afterStep_keeps_cfg (s : State) : (afterStep s).cfg = s.cfg := by
  obtain h | h := afterStep_cases s
  · rw [h]
  · exact step_keeps_cfg h

/-- No invariant speaks of the random input, so the host's offer of a byte keeps them too. -/
theorem stepWith_keeps_inv {s : State} (hinv : s.Inv) (rnd : Byte) : (stepWith rnd s).2.Inv := by
  have hoffered : (s.setRnd (rnd :: s.rndIn) s.rndCount).Inv := hinv
  exact afterStep_keeps_inv hoffered

theorem loadProgram_keeps_inv {s : State} (hinv : s.Inv) (bytes : List Byte) : (loadProgram bytes s).2.Inv := by
  obtain ⟨hcanonical, hintact, hlive, hpc⟩ := hinv
  unfold loadProgram
  split
  · exact ⟨hcanonical, hintact, hlive, hpc⟩
  · next hfits =>
    have hmem : s.MemInv := ⟨hcanonical, hintact⟩
    obtain ⟨hcanonical', hintact'⟩ := hmem.pokeBytes (a := 0x200) (bs := bytes) le_rfl (by omega)
    exact ⟨hcanonical', hintact', hlive, hpc⟩

theorem hostOp_keeps_inv (op : HostOp) {s : State} (hinv : s.Inv) : (hostOp op s).2.Inv := by
  cases op with
  | reset => exact inv_resetWith s.cfg
  | loadProgram bytes => exact loadProgram_keeps_inv hinv bytes
  | step rnd => exact stepWith_keeps_inv hinv rnd
  | setInput | tickTimers | framebufferSnapshot | soundSignal => exact hinv

theorem hostRun_keeps_inv (ops : List HostOp) {s : State} (hinv : s.Inv) : (hostRun ops s).Inv := by
  induction ops generalizing s with
  | nil => exact hinv
  | cons op ops ih => exact ih (hostOp_keeps_inv op hinv)

/-- Settles O57: by induction on the operations. -/
theorem hostRunKeepsTheInvariant : Obligations.HostRunKeepsTheInvariant := fun ops _ => hostRun_keeps_inv ops

theorem hostOp_keeps_cfg (op : HostOp) (s : State) : (hostOp op s).2.cfg = s.cfg := by
  cases op with
  | loadProgram bytes =>
    rw [hostOp, loadProgram]
    split <;> rfl
  | step rnd => exact afterStep_keeps_cfg (s.setRnd (rnd :: s.rndIn) s.rndCount)
  | reset | setInput | tickTimers | framebufferSnapshot | soundSignal => rfl

theorem hostRun_keeps_cfg (ops : List HostOp) (s : State) : (hostRun ops s).cfg = s.cfg := by
  induction ops generalizing s with
  | nil => rfl
  | cons op ops ih => exact (ih _).trans (hostOp_keeps_cfg op s)

/-- Settles O58: before and after the run, low memory holds the font of the one configuration and zeros. -/
theorem lowMemoryNeverChanges : Obligations.LowMemoryNeverChanges := by
  intro ops s hinv
  have hcfg := hostRun_keeps_cfg ops s
  obtain ⟨-, hintact', -, -⟩ := hostRun_keeps_inv ops hinv
  obtain ⟨-, hintact, -, -⟩ := hinv
  refine ⟨hcfg, fun a ha => ?_⟩
  rw [hintact' a ha, hintact a ha, hcfg]

end Sys2Proof.Machine
